-- ==== Sys2Proof/Word.lean ====
section
/-! DEFINITION. The word types of the block: 32-bit registers and queue words (spec/20_memory.md R65),
8-bit buffer bytes (R65), and the 16-bit result values (spec/10_state.md R25). -/

namespace Sys2Proof

/-- A 32-bit host register, command word or input-queue word (20 R65, 30 R80). -/
abbrev Word := BitVec 32

/-- A byte of the raw buffer, of the output queue or of the decode operand (10 R36, R39, R29). -/
abbrev Byte := BitVec 8

/-- A 16-bit result value, `HUM` or `TEMP` (10 R25). -/
abbrev Half := BitVec 16

end Sys2Proof
end

