-- ==== Sys2Proof/Syntax.lean ====
section
/-! DEFINITION. The instructions of the block: one constructor per row of spec/opcode_table.json, six host
commands (spec/30_encoding.md R81 to R83) and eleven sequencer phases (R89). -/

namespace Sys2Proof

/-- The four device models (30 R84). The set is closed, so "unrecognised model" cannot be written (43 R213). -/
inductive Model where
  | m0 | m1 | m2 | m3
  deriving DecidableEq, Repr, Inhabited

/-- One constructor per row of the opcode table. -/
inductive Instr where
  /-- `NOP` (42 R161). -/
  | nop
  /-- `INIT model, pull_up, pin, block` (42 R162). `pin` is 0 to 31 and `block` 0 to 3 in a word (30 R85). -/
  | init (model : Model) (pullUp : Bool) (pin : Nat) (block : Nat)
  /-- `DEINIT` (42 R163). -/
  | deinit
  /-- `START` (42 R164). -/
  | start
  /-- `FINISH` (42 R165). -/
  | finish
  /-- `DECODE model` (42 R166). -/
  | decode (model : Model)
  /-- Phase 0, `PULL_START` (40 R112). -/
  | pullStart
  /-- Phase 1, `PULL_THRESH` (40 R113). -/
  | pullThresh
  /-- Phase 2, `DRIVE_LOW` (40 R114). -/
  | driveLow
  /-- Phase 3, `WAIT_RELEASE` (40 R115). -/
  | waitRelease
  /-- Phase 4, `WAIT_ACK_LOW` (40 R116). -/
  | waitAckLow
  /-- Phase 5, `WAIT_ACK_HIGH` (40 R117). -/
  | waitAckHigh
  /-- Phase 6, `WAIT_ACK_END` (40 R118). -/
  | waitAckEnd
  /-- Phase 7, `WAIT_BIT_HIGH` (40 R119). -/
  | waitBitHigh
  /-- Phase 8, `MEASURE_HIGH` (40 R120). -/
  | measureHigh
  /-- Phase 9, `PUSH_STALL` (40 R121). -/
  | pushStall
  /-- Phase 10, `DONE` (40 R122). -/
  | done
  deriving DecidableEq, Repr

end Sys2Proof
end

