-- ==== Sys2Proof/WellFormed.lean ====
section
/-! DEFINITION. Which instructions have an encoding: the operands of `INIT` must fit their fields
(spec/30_encoding.md R81, R85, R104: `<p>` 0 to 31, `<b>` 0 to 3). The platform's own ranges
(`P_NUM_PINS`, `P_NUM_BLOCKS`) are checked by `INIT` itself, not here (R85). -/

namespace Sys2Proof

/-- The operand fits its field of the command word. -/
def Instr.wellFormed : Instr → Bool
  | .nop => true
  | .init _ _ pin block => decide (pin < 32) && decide (block < 4)
  | .deinit => true
  | .start => true
  | .finish => true
  | .decode _ => true
  | .pullStart => true
  | .pullThresh => true
  | .driveLow => true
  | .waitRelease => true
  | .waitAckLow => true
  | .waitAckHigh => true
  | .waitAckEnd => true
  | .waitBitHigh => true
  | .measureHigh => true
  | .pushStall => true
  | .done => true

end Sys2Proof
end

