-- ==== Sys2Proof/Decode.lean ====
section
/-! DEFINITION. The decoder and, after it, the encoder, both written from spec/30_encoding.md: the command word
(R81 to R87, R107) and the phase code (R89). -/

namespace Sys2Proof

/-- The two encoded forms an instruction has (30 R80): a command word the host writes to `CMD`, or a phase
code held by the sequencer's program counter. -/
inductive Code where
  /-- A 32-bit command word. -/
  | command (w : Word)
  /-- A 4-bit phase code. -/
  | phase (p : BitVec 4)
  deriving DecidableEq, Repr

/-- Why a code is no instruction. -/
inductive DecodeError where
  /-- `OP` is 0x6 to 0xF (30 R82, R86). -/
  | reservedOp (op : BitVec 4)
  /-- A bit outside the fields that the word's `OP` uses is 1 (30 R83, R86). -/
  | reservedBits (op : BitVec 4)
  /-- Phase codes 11 to 15 (30 R89, 40 R123). -/
  | reservedPhase (p : BitVec 4)
  deriving DecidableEq, Repr

/-- The model of a 2-bit code; every code is a model (30 R84). -/
def modelOfCode (c : BitVec 2) : Model :=
  if c = 0 then .m0 else if c = 1 then .m1 else if c = 2 then .m2 else .m3

/-- `decode_cmd` of 30 R107, in its order. -/
def decodeCommand (w : Word) : Except DecodeError Instr :=
  let op := w.extractLsb' 0 4
  if op = 0x0 then
    if w = 0 then .ok .nop else .error (.reservedBits op)
  else if op = 0x1 then
    if w.extractLsb' 15 17 = 0 ∧ w.extractLsb' 7 1 = 0 then
      .ok (.init (modelOfCode (w.extractLsb' 4 2)) (w.getLsbD 6)
        (w.extractLsb' 8 5).toNat (w.extractLsb' 13 2).toNat)
    else .error (.reservedBits op)
  else if op = 0x2 then
    if w.extractLsb' 4 28 = 0 then .ok .deinit else .error (.reservedBits op)
  else if op = 0x3 then
    if w.extractLsb' 4 28 = 0 then .ok .start else .error (.reservedBits op)
  else if op = 0x4 then
    if w.extractLsb' 4 28 = 0 then .ok .finish else .error (.reservedBits op)
  else if op = 0x5 then
    if w.extractLsb' 6 26 = 0 then .ok (.decode (modelOfCode (w.extractLsb' 4 2)))
    else .error (.reservedBits op)
  else .error (.reservedOp op)

/-- The phase of a phase code (30 R89); codes 11 to 15 are reserved (40 R123). -/
def decodePhase (p : BitVec 4) : Except DecodeError Instr :=
  if p = 0 then .ok .pullStart
  else if p = 1 then .ok .pullThresh
  else if p = 2 then .ok .driveLow
  else if p = 3 then .ok .waitRelease
  else if p = 4 then .ok .waitAckLow
  else if p = 5 then .ok .waitAckHigh
  else if p = 6 then .ok .waitAckEnd
  else if p = 7 then .ok .waitBitHigh
  else if p = 8 then .ok .measureHigh
  else if p = 9 then .ok .pushStall
  else if p = 10 then .ok .done
  else .error (.reservedPhase p)

/-- The decoder: total on every command word and every phase code. -/
def decode : Code → Except DecodeError Instr
  | .command w => decodeCommand w
  | .phase p => decodePhase p

/-- The 2-bit code of a model (30 R84). -/
def modelCode : Model → BitVec 2
  | .m0 => 0
  | .m1 => 1
  | .m2 => 2
  | .m3 => 3

/-- The command word of an `INIT` (30 R81, R104): `0x1 | m<<4 | u<<6 | p<<8 | b<<13`. -/
def initWord (model : Model) (pullUp : Bool) (pin block : Nat) : Word :=
  0#17 ++ BitVec.ofNat 2 block ++ BitVec.ofNat 5 pin ++ 0#1 ++ BitVec.ofBool pullUp ++ modelCode model ++ 1#4

/-- The command word of a `DECODE` (30 R104): `0x5 | m<<4`. -/
def decodeWord (model : Model) : Word :=
  0#26 ++ modelCode model ++ 5#4

/-- The encoder (30 R81, R89, R104). -/
def encode : Instr → Code
  | .nop => .command 0x00000000
  | .init model pullUp pin block => .command (initWord model pullUp pin block)
  | .deinit => .command 0x00000002
  | .start => .command 0x00000003
  | .finish => .command 0x00000004
  | .decode model => .command (decodeWord model)
  | .pullStart => .phase 0
  | .pullThresh => .phase 1
  | .driveLow => .phase 2
  | .waitRelease => .phase 3
  | .waitAckLow => .phase 4
  | .waitAckHigh => .phase 5
  | .waitAckEnd => .phase 6
  | .waitBitHigh => .phase 7
  | .measureHigh => .phase 8
  | .pushStall => .phase 9
  | .done => .phase 10

/-- The code whose bits the opcode table gives as `w`: the table's command rows have 32 bits, its phase rows 4,
which whole bytes round to 8 (log 19). -/
def tableCode (nbits w : Nat) : Code :=
  if nbits ≤ 8 then .phase (BitVec.ofNat 4 w) else .command (BitVec.ofNat 32 w)

/-- The instruction the decoder reads from a word of the opcode table. -/
def decodeTableWord (nbits w : Nat) : Option Instr :=
  match decode (tableCode nbits w) with
  | .ok i => some i
  | .error _ => none

end Sys2Proof
end

