-- ==== Sys2Proof/Config.lean ====
section
/-! DEFINITION. What the platform fixes and what the environment chooses: the open parameters
(spec/00_scope.md R9, spec/93_implementation_defined.md I17 to I19), the draws (R13), the events that may come
next (R6), and the free values of the model, `Config.params`, `Config.freeEvent` and
`Config.wideThreshWord`, none of which has a body. -/

namespace Sys2Proof

/-- The open parameters of 00 R9, 20 R69 and 60 R253. A range that starts at 1 is held less one, so that every
value of the type is a value the spec admits (log 3). -/
structure Params where
  /-- `THRESH_US(0)` in microseconds. -/
  threshM0 : Nat
  /-- `THRESH_US(1)` in microseconds. -/
  threshM1 : Nat
  /-- `THRESH_US(2)` in microseconds. -/
  threshM2 : Nat
  /-- `THRESH_US(3)` in microseconds. -/
  threshM3 : Nat
  /-- `P_SYS_CLK_HZ` is this plus one, times 1 000 000: a positive multiple of 1 000 000. -/
  sysClkMHzLess1 : Nat
  /-- `P_NUM_BLOCKS` less one (1 to 4). -/
  numBlocksLess1 : Fin 4
  /-- `P_UNITS_PER_BLOCK` less one (1 to 16). -/
  unitsPerBlockLess1 : Fin 16
  /-- `P_NUM_CHANNELS` less one (1 to 16). -/
  numChannelsLess1 : Fin 16
  /-- `P_NUM_PINS` less one (1 to 32). -/
  numPinsLess1 : Fin 32
  /-- `P_NUM_INSTANCES` less one (at least 1). -/
  numInstancesLess1 : Nat
  /-- `P_CORE_BASE`, where the platform maps the register window; no step reads it (log 18). -/
  coreBase : Nat
  /-- `P_MIN_INTERVAL_US`, the caller's duty; no step reads it, since the block does not enforce it (70 R273). -/
  minIntervalUs : Nat
  deriving DecidableEq, Repr, Inhabited

/-- The values the environment supplies to one step (00 R13). -/
structure Draws where
  /-- `line(k)`, the released line's level in this tick (10 R37). -/
  line : Bool
  /-- Microseconds the clock advances before this step, so that the clock never goes back (60 R244). -/
  elapse : Nat
  /-- The unit the allocator prefers (60 R246). -/
  unitPick : Nat
  /-- The channel the allocator prefers (60 R247). -/
  chanPick : Nat
  /-- What `load_program` returns (60 R248). -/
  loadOk : Bool
  deriving DecidableEq, Repr, Inhabited

/-- What happens next, one constructor per kind of step of an agent (00 R6). -/
inductive Action where
  /-- The host writes `value` at `offset` of the register window with an access `width` bits wide (20 R67). -/
  | hostWrite (width offset : Nat) (value : Word)
  /-- The host reads at `offset` of the register window with an access `width` bits wide (20 R67). -/
  | hostRead (width offset : Nat)
  /-- One sequencer tick (40 R110). -/
  | seqTick
  /-- One channel transfer (41 R143). -/
  | chStep
  /-- One FINISH sub-phase step of the controller (42 R176 to R178). -/
  | ctlStep
  /-- Another instance claims a unit (60 R246, R253). -/
  | peerClaimUnit (block unit : Nat)
  /-- Another instance releases a unit it holds (60 R249, R253). -/
  | peerReleaseUnit (block unit : Nat)
  /-- Another instance claims a channel (60 R247, R253). -/
  | peerClaimChannel (channel : Nat)
  /-- Another instance releases a channel it holds (60 R249, R253). -/
  | peerReleaseChannel (channel : Nat)
  /-- The platform resets this block alone (70 R260). -/
  | blockReset
  /-- The platform resets every instance and the allocator (70 R260). -/
  | platformReset
  deriving DecidableEq, Repr, Inhabited

/-- One step of the interleaving with the draws it sees. -/
structure Event where
  action : Action
  draws : Draws
  deriving DecidableEq, Repr, Inhabited

/-- The platform's parameters: open, so nothing is known of them but their ranges (00 R9). -/
opaque Config.params : Params

/-- The event the environment and the interleaving choose at the `n`-th free choice: any event whatever (00 R6,
R13; log 1). -/
opaque Config.freeEvent : Nat → Event

/-- The timing word of a threshold of 2^32 ticks or more, which no 32-bit word holds (30 R88; log 16): any word. -/
opaque Config.wideThreshWord : Nat → Word

end Sys2Proof
end

