-- ==== Sys2Proof/Machine/State.lean ====
section
/-! DEFINITION. The state of one CORE instance, group by group as spec/10_state.md R20 lists it, with the
allocator (R40), the platform's parameters and the model's own environment fields, and its value after reset (R46,
spec/70_reset_and_hazards.md R260). -/

namespace Sys2Proof.Machine

/-- `STATE` (10 R21). -/
inductive CtlState where
  | uninit | idle | armed | finishing
  deriving DecidableEq, Repr, Inhabited

/-- `FIN_SUB` (10 R22); value 3 is never written (log 14). -/
inductive FinSub where
  | wait | disable | check
  deriving DecidableEq, Repr, Inhabited

/-- `RESULT` (10 R24). -/
inductive ResultCode where
  | none | ok | timeout | badChecksum
  deriving DecidableEq, Repr, Inhabited

/-- `FAULT_CAUSE` (60 R231); 12 is never raised and 13 to 15 are reserved (log 14). -/
inductive FaultCause where
  | none
  | illegalCommand
  | alreadyInitialised
  | badBlock
  | badPin
  | noFreeUnit
  | noFreeChannel
  | noProgramSpace
  | notInitialised
  | startNotIdle
  | finishNotArmed
  | busyReentry
  | unrecognisedModel
  deriving DecidableEq, Repr, Inhabited

/-- Five raw bytes in arrival order (20 R63, 43 R203). -/
structure Frame where
  /-- Humidity-high. -/
  hh : Byte
  /-- Humidity-low. -/
  hl : Byte
  /-- Temperature-high. -/
  th : Byte
  /-- Temperature-low. -/
  tl : Byte
  /-- Checksum. -/
  ck : Byte
  deriving DecidableEq, Repr, Inhabited

/-- The five result registers, always written together (10 R24, R25; 43 R210). -/
structure Reading where
  /-- `RESULT`. -/
  result : ResultCode
  /-- `HUM`, tenths of %RH. -/
  hum : Half
  /-- `TEMP`, tenths of a degree, two's complement. -/
  temp : Half
  /-- `TNEG`. -/
  tneg : Bool
  /-- `TCLAMP`. -/
  tclamp : Bool
  deriving DecidableEq, Repr, Inhabited

/-- `CONFIG`, the configuration latched by `INIT` (10 R26). -/
structure ConfigReg where
  model : Model
  pullUp : Bool
  pin : BitVec 5
  block : BitVec 2
  unitId : BitVec 4
  chanId : BitVec 4
  progLoaded : Bool
  deriving DecidableEq, Repr, Inhabited

/-- The controller group (10 R21 to R29). -/
structure Ctl where
  /-- `STATE` (R21). -/
  state : CtlState
  /-- `FIN_SUB` (R22). -/
  finSub : FinSub
  /-- `FATAL` (R23). -/
  fatal : Bool
  /-- `FAULT_CAUSE` (R23). -/
  faultCause : FaultCause
  /-- `FAULT_INFO` (R23). -/
  faultInfo : Word
  /-- `RESULT`, `HUM`, `TEMP`, `TNEG`, `TCLAMP` (R24, R25). -/
  reading : Reading
  /-- `CONFIG` (R26). -/
  config : ConfigReg
  /-- `START_TS` (R27). -/
  startTs : Word
  /-- `DIV` (R28); 0 means not configured. -/
  div : Nat
  /-- `DEC_IN[0..4]` (R29). -/
  decIn : Frame
  deriving DecidableEq, Repr, Inhabited

/-- The sequencer group (10 R30 to R37). -/
structure Seq where
  /-- `SEQ_EN` (R30). -/
  seqEn : Bool
  /-- `PHASE`, the sequencer's program counter (R31). -/
  phase : BitVec 4
  /-- `X` (R32). -/
  x : Word
  /-- `Y` (R33). -/
  y : Word
  /-- `W` (R34). -/
  w : Word
  /-- `ISR` (R35). -/
  isr : Byte
  /-- `BITCNT`, 0 to 8 (R35). -/
  bitCnt : Nat
  /-- `NBITS`, 0 to 40 (R35). -/
  nBits : Nat
  /-- `INQ`, oldest word first (R36). -/
  inq : List Word
  /-- `OUTQ`, oldest byte first (R36). -/
  outq : List Byte
  /-- `PIN_DIR`, true when the pin is driven low (R37). -/
  pinDir : Bool
  /-- `PULL` (R37). -/
  pull : Bool
  deriving DecidableEq, Repr, Inhabited

/-- The channel group (10 R38). -/
structure Chan where
  /-- `CH_BUSY`. -/
  busy : Bool
  /-- `CH_COUNT`, 0 to 5. -/
  count : Nat
  /-- `CH_DST`, 0 to 5. -/
  dst : Nat
  deriving DecidableEq, Repr, Inhabited

/-- The raw buffer as address and byte pairs, addresses strictly rising, no byte 0 listed (10 R39; log 6). -/
abbrev Memory := List Host.Cell

/-- The allocator all instances share (10 R40). -/
structure Alloc where
  /-- The pairs (b, u) with `UNIT_CLAIMED[b][u] = 1`. -/
  units : List (Nat × Nat)
  /-- The ids c with `CHAN_CLAIMED[c] = 1`. -/
  chans : List Nat
  /-- The blocks whose program space is held, one entry per program held (60 R248; log 12). -/
  progs : List Nat
  deriving DecidableEq, Repr, Inhabited

/-- The model's own fields: what the environment supplies and sees (log 1, 2, 10, 11). -/
structure Env where
  /-- The draws of the step being taken. -/
  draws : Draws
  /-- The clock T in microseconds; `now_us()` is T modulo 2^32 (60 R244). -/
  clock : Nat
  /-- The units other instances hold. -/
  peerUnits : List (Nat × Nat)
  /-- The channels other instances hold. -/
  peerChans : List Nat
  /-- The word the last host read returned. -/
  hostData : Word
  /-- The events to come, the next one first. -/
  agenda : List Event
  /-- How many free events have been taken. -/
  eventNo : Nat
  deriving DecidableEq, Repr, Inhabited

/-- The whole state. -/
structure State where
  ctl : Ctl
  seq : Seq
  ch : Chan
  buf : Memory
  alloc : Alloc
  params : Params
  env : Env
  deriving DecidableEq, Repr, Inhabited

/-- Why a step ends the run. Both are safe: the model stops where no rule of the spec says what happens, in states
that no run from reset reaches (log 7). -/
inductive Fault where
  /-- Raised by the channel's transfer when `CH_DST` is no address of BUF (20 R61 gives `MemWrite` for 0 to 4
  only). Safe. -/
  | bufAddress (addr : Nat)
  /-- Raised by the channel's transfer when `CH_BUSY = 1` with `CH_COUNT = 0` (41 R143: the count never wraps).
  Safe. -/
  | chCountZero
  deriving DecidableEq, Repr, Inhabited

/-- Why a step has no meaning. All are safe: the model stops and no claim can be proved past it. -/
inductive Refusal where
  /-- Raised by an arm of `exec` whose instruction has no meaning in this model; no arm is one. Safe. -/
  | notModelled (mnemonic : String)
  /-- Raised by a host access that is not 32 bits wide (20 R66, R70). Safe. -/
  | accessWidth (bits : Nat)
  /-- Raised by a 32-bit host access at an offset that is no multiple of 4 (20 R66, R70). Safe. -/
  | accessAlignment (offset : Nat)
  deriving DecidableEq, Repr, Inhabited

/-- No result (10 R24, R25): `RESULT = NONE` and the four values 0. -/
def Reading.reset : Reading :=
  { result := .none, hum := 0, temp := 0, tneg := false, tclamp := false }

/-- `CONFIG` with all fields 0 (10 R26, R46). -/
def ConfigReg.reset : ConfigReg :=
  { model := .m0, pullUp := false, pin := 0, block := 0, unitId := 0, chanId := 0, progLoaded := false }

/-- The controller group after reset (10 R46, 70 R260). -/
def Ctl.reset : Ctl :=
  { state := .uninit, finSub := .wait, fatal := false, faultCause := .none, faultInfo := 0
    reading := Reading.reset, config := ConfigReg.reset, startTs := 0, div := 0
    decIn := { hh := 0, hl := 0, th := 0, tl := 0, ck := 0 } }

/-- The sequencer group after reset (10 R46, 70 R260). -/
def Seq.reset : Seq :=
  { seqEn := false, phase := 0, x := 0, y := 0, w := 0, isr := 0, bitCnt := 0, nBits := 0
    inq := [], outq := [], pinDir := false, pull := false }

/-- The channel group after reset (10 R46, 70 R260). -/
def Chan.reset : Chan :=
  { busy := false, count := 0, dst := 0 }

/-- The allocator's reset state, the platform's premise that all is free (10 R40, R46). -/
def Alloc.reset : Alloc :=
  { units := [], chans := [], progs := [] }

/-- The environment's fields before the first step (log 1, 2, 10, 11): DESIGN CHOICE, no event pending, and draws
that the first event overwrites. -/
def Env.reset : Env :=
  { draws := { line := false, elapse := 0, unitPick := 0, chanPick := 0, loadOk := true }
    clock := 0, peerUnits := [], peerChans := [], hostData := 0, agenda := [], eventNo := 0 }

/-- The machine right after reset (10 R46, 70 R260, R261): the spec states every value of the instance; the
parameters stay open. -/
def State.reset : State :=
  { ctl := Ctl.reset, seq := Seq.reset, ch := Chan.reset, buf := [], alloc := Alloc.reset
    params := Config.params, env := Env.reset }

end Sys2Proof.Machine
end

