-- ==== Sys2Proof/Machine/Ops.lean ====
section
/-! DEFINITION. The named operations over the state: the raw buffer (spec/20_memory.md R61, R62), the fatal state
(spec/60_exceptions.md R233), the sequencer's restart (spec/40_sequencer.md R127), the channel's configure and abort
(spec/41_transfer_channel.md R141, R145), the allocator (60 R246 to R249) and the resets
(spec/70_reset_and_hazards.md R260). -/

namespace Sys2Proof.Machine

/-! ## The raw buffer -/

/-- BUF has addresses 0 to 4 (20 R60). -/
def bufSize : Nat := 5

/-- What an unlisted address of BUF reads as: the reset value 0 (10 R39, R46). -/
def bufUnlisted : Byte := 0

/-- `MemRead(addr, 1)`: the byte at `addr`, 0 to 4 (20 R62). -/
def bufGet : Memory → Nat → Byte
  | [], _ => bufUnlisted
  | (a, v) :: rest, addr => if addr = a then v else bufGet rest addr

/-- `mem` with `v` at `addr`, in canonical form: addresses rising, no entry equal to the unlisted value. -/
def bufPut (addr : Nat) (v : Byte) : Memory → Memory
  | [] => if v = bufUnlisted then [] else [(addr, v)]
  | (a, u) :: rest =>
    if addr < a then
      if v = bufUnlisted then (a, u) :: rest else (addr, v) :: (a, u) :: rest
    else if addr = a then
      if v = bufUnlisted then rest else (addr, v) :: rest
    else (a, u) :: bufPut addr v rest

/-- The canonical form from address `lo` on: rising addresses below `bufSize`, no unlisted value listed. -/
def bufWfFrom (lo : Nat) : Memory → Bool
  | [] => true
  | (a, v) :: rest => decide (lo ≤ a) && decide (a < bufSize) && decide (v ≠ bufUnlisted) && bufWfFrom (a + 1) rest

/-- The canonical form of the raw buffer. -/
def Memory.wf (mem : Memory) : Bool := bufWfFrom 0 mem

/-- `MemWrite(addr, 1, v)`, which has an effect for the addresses 0 to 4 only (20 R61). -/
def memWrite (addr : Nat) (v : Byte) (s : State) : Option State :=
  if addr < bufSize then some { s with buf := bufPut addr v s.buf } else none

/-- `BUF[0..4] <- 0` (42 R162, R164). -/
def bufZero (s : State) : State := { s with buf := [] }

/-! ## The fatal state -/

/-- `fatal_entry(cause, w)` (60 R233): the one exception of the block. Nothing else changes; only reset leaves the
fatal state (60 R235), so there is no return operation but `blockReset` and `platformReset`. -/
def fatalEntry (cause : FaultCause) (w : Word) (s : State) : State :=
  { s with ctl := { s.ctl with fatal := true, faultCause := cause, faultInfo := w } }

/-- The frame of a command step around `perform` (42 R160): nothing while `FATAL = 1`, `BUSY_REENTRY` while
FINISHING, else the command. `w` is the command word, recorded in `FAULT_INFO`. -/
def commandStep (w : Word) (perform : State → State) (s : State) : State :=
  if s.ctl.fatal then s
  else if s.ctl.state = .finishing then fatalEntry .busyReentry w s
  else perform s

/-- The command step of an illegal word (42 R160, 30 R86, 60 R236, R238). -/
def illegalCommand (w : Word) (s : State) : State :=
  if s.ctl.fatal then s else fatalEntry .illegalCommand w s

/-- The command word of a command, as recorded in `FAULT_INFO` (60 R231): each command has exactly one word
(30 R83; log 9). A phase has none. -/
def commandWord (i : Instr) : Word :=
  match encode i with
  | .command w => w
  | .phase _ => 0

/-! ## The sequencer -/

/-- The depth of INQ and of OUTQ (10 R36). -/
def queueDepth : Nat := 4

/-- `full(Q)` (00 R12). -/
def queueFull {α : Type} (q : List α) : Bool := decide (queueDepth ≤ q.length)

/-- `push(Q, v)` appends at the tail (00 R12, 20 R76). -/
def queuePush {α : Type} (q : List α) (v : α) : List α := q ++ [v]

/-- A step that changes the sequencer group alone. -/
def onSeq (f : Seq → Seq) (s : State) : State := { s with seq := f s.seq }

/-- `seq_restart()` (40 R127): `SEQ_EN` and `PULL` are not of it. -/
def seqRestart (q : Seq) : Seq :=
  { q with phase := 0, x := 0, y := 0, w := 0, isr := 0, bitCnt := 0, nBits := 0, inq := [], outq := []
           pinDir := false }

/-- Disabling the sequencer (40 R128): it stops, releases the pin and keeps everything else. -/
def seqDisable (q : Seq) : Seq := { q with seqEn := false, pinDir := false }

/-! ## The channel -/

/-- The transfers of one configuration (41 R140, R141). -/
def transferCount : Nat := 5

/-- `ch_configure()` (41 R141). -/
def chConfigure (s : State) : State :=
  { s with ch := { busy := true, count := transferCount, dst := 0 } }

/-- `ch_abort()` (41 R145). -/
def chAbort (s : State) : State :=
  { s with ch := { s.ch with busy := false } }

/-! ## The allocator -/

/-- `P_NUM_BLOCKS` (00 R9). -/
def numBlocks (p : Params) : Nat := p.numBlocksLess1.val + 1

/-- `P_UNITS_PER_BLOCK` (00 R9). -/
def unitsPerBlock (p : Params) : Nat := p.unitsPerBlockLess1.val + 1

/-- `P_NUM_CHANNELS` (00 R9). -/
def numChannels (p : Params) : Nat := p.numChannelsLess1.val + 1

/-- `P_NUM_PINS` (00 R9). -/
def numPins (p : Params) : Nat := p.numPinsLess1.val + 1

/-- `P_NUM_INSTANCES` (60 R253). -/
def numInstances (p : Params) : Nat := p.numInstancesLess1 + 1

/-- The free units of block `b`, lowest first: the set F of 60 R246. -/
def freeUnits (b : Nat) (s : State) : List Nat :=
  (List.range (unitsPerBlock s.params)).filter (fun u => !decide ((b, u) ∈ s.alloc.units))

/-- The free channels, lowest first: the set F of 60 R247. -/
def freeChannels (s : State) : List Nat :=
  (List.range (numChannels s.params)).filter (fun c => !decide (c ∈ s.alloc.chans))

/-- `choose(F)`: the drawn id where it is a member of F, else F's lowest; every member can be drawn (log 13). -/
def choose (free : List Nat) (pick : Nat) : Option Nat :=
  if pick ∈ free then some pick else free.head?

/-- `UNIT_CLAIMED[b][u] <- 1` (60 R246). -/
def holdUnit (b u : Nat) (s : State) : State :=
  { s with alloc := { s.alloc with units := (b, u) :: s.alloc.units } }

/-- `CHAN_CLAIMED[c] <- 1` (60 R247). -/
def holdChannel (c : Nat) (s : State) : State :=
  { s with alloc := { s.alloc with chans := c :: s.alloc.chans } }

/-- Block b's program space is held (60 R248). -/
def holdProgram (b : Nat) (s : State) : State :=
  { s with alloc := { s.alloc with progs := b :: s.alloc.progs } }

/-- `claim_unit(b)` (60 R246). -/
def claimUnit (b : Nat) (s : State) : Option (Nat × State) :=
  match choose (freeUnits b s) s.env.draws.unitPick with
  | none => none
  | some u => some (u, holdUnit b u s)

/-- `claim_channel()` (60 R247). -/
def claimChannel (s : State) : Option (Nat × State) :=
  match choose (freeChannels s) s.env.draws.chanPick with
  | none => none
  | some c => some (c, holdChannel c s)

/-- `load_program(b)` (60 R248): whether block b has room is a draw; where it has, the space is held. -/
def loadProgram (b : Nat) (s : State) : Option State :=
  if s.env.draws.loadOk then some (holdProgram b s) else none

/-- `release_channel(c)` (60 R249). -/
def releaseChannel (c : Nat) (s : State) : State :=
  { s with alloc := { s.alloc with chans := s.alloc.chans.filter (fun x => decide (x ≠ c)) } }

/-- `release_unit(b, u)` (60 R249). -/
def releaseUnit (b u : Nat) (s : State) : State :=
  { s with alloc := { s.alloc with units := s.alloc.units.filter (fun x => decide (x ≠ (b, u))) } }

/-- `unload_program(b)` (60 R249). -/
def unloadProgram (b : Nat) (s : State) : State :=
  { s with alloc := { s.alloc with progs := s.alloc.progs.erase b } }

/-! ## Other instances (60 R246, R249, R253; log 11) -/

/-- Another instance claims unit (b, u): possible where there is one and the unit is free. -/
def peerClaimUnit (b u : Nat) (s : State) : State :=
  if 1 < numInstances s.params ∧ b < numBlocks s.params ∧ u ∈ freeUnits b s then
    let s := holdUnit b u s
    { s with env := { s.env with peerUnits := (b, u) :: s.env.peerUnits } }
  else s

/-- Another instance releases a unit it holds. -/
def peerReleaseUnit (b u : Nat) (s : State) : State :=
  if (b, u) ∈ s.env.peerUnits then
    let s := releaseUnit b u s
    { s with env := { s.env with peerUnits := s.env.peerUnits.filter (fun x => decide (x ≠ (b, u))) } }
  else s

/-- Another instance claims channel c: possible where there is one and the channel is free. -/
def peerClaimChannel (c : Nat) (s : State) : State :=
  if 1 < numInstances s.params ∧ c ∈ freeChannels s then
    let s := holdChannel c s
    { s with env := { s.env with peerChans := c :: s.env.peerChans } }
  else s

/-- Another instance releases a channel it holds. -/
def peerReleaseChannel (c : Nat) (s : State) : State :=
  if c ∈ s.env.peerChans then
    let s := releaseChannel c s
    { s with env := { s.env with peerChans := s.env.peerChans.filter (fun x => decide (x ≠ c)) } }
  else s

/-! ## Reset -/

/-- The block's reset (70 R260): every element of the instance, and the allocator's claims stay. -/
def blockReset (s : State) : State :=
  { s with ctl := Ctl.reset, seq := Seq.reset, ch := Chan.reset, buf := [] }

/-- The reset of every instance together with the allocator (70 R260, 10 R46; log 17). -/
def platformReset (s : State) : State :=
  let s := blockReset s
  { s with alloc := Alloc.reset, env := { s.env with peerUnits := [], peerChans := [] } }

end Sys2Proof.Machine
end

