-- ==== Sys2Proof/Machine/Operands.lean ====
section
/-! DEFINITION. The operands: the line sample (spec/40_sequencer.md R111), the clock (spec/60_exceptions.md R244), the
timing constants and words (spec/00_scope.md R8 to R10, spec/30_encoding.md R88, spec/42_controller.md R169, R170), the
frame in BUF (spec/20_memory.md R62, R63) and the byte lanes of the register window (20 R64). -/

namespace Sys2Proof.Machine

/-- The line sample `s` of a tick (40 R111): 0 while the pin is driven, else the draw. -/
def lineSample (s : State) : Bool := !s.seq.pinDir && s.env.draws.line

/-- `now_us()` (60 R244). -/
def nowUs (s : State) : Word := BitVec.ofNat 32 s.env.clock

/-- The sequencer's clock (00 R8). -/
def seqClkHz : Nat := 1000000

/-- Microseconds to sequencer ticks, `round(us * SEQ_CLK_HZ / 1_000_000)` (00 R10). -/
def ticksOfUs (us : Nat) : Nat := (us * seqClkHz + 500000) / 1000000

/-- `START_US(m)` (30 R84). -/
def startUs : Model → Nat
  | .m0 => 18000
  | .m1 => 18000
  | .m2 => 1000
  | .m3 => 1000

/-- `THRESH_US(m)`, open (00 R9). -/
def threshUs (p : Params) : Model → Nat
  | .m0 => p.threshM0
  | .m1 => p.threshM1
  | .m2 => p.threshM2
  | .m3 => p.threshM3

/-- `START_TICKS(m)`, timing word 0 (00 R10, 30 R88). -/
def startTicks (m : Model) : Word := BitVec.ofNat 32 (ticksOfUs (startUs m))

/-- An open number of ticks as a timing word: the count itself where 32 bits hold it (30 R88), and a free value
otherwise (log 16). -/
def tickWord (ticks : Nat) : Word :=
  if ticks < 4294967296 then BitVec.ofNat 32 ticks else Config.wideThreshWord ticks

/-- `THRESH_TICKS(m)`, timing word 1 (00 R10, 30 R88). -/
def threshTicks (p : Params) (m : Model) : Word := tickWord (ticksOfUs (threshUs p m))

/-- `TIMEOUT_MARGIN_US` (00 R8). -/
def timeoutMarginUs : Nat := 6000

/-- `BUDGET_US(m)` (42 R170). -/
def budgetUs (m : Model) : Nat := startUs m + timeoutMarginUs

/-- `elapsed(now)` (42 R169). -/
def elapsed (now : Word) (s : State) : Word := now - s.ctl.startTs

/-- `P_SYS_CLK_HZ`, a positive multiple of 1 000 000 (60 R245). -/
def sysClkHz (p : Params) : Nat := (p.sysClkMHzLess1 + 1) * 1000000

/-- The frame in BUF, `MemRead` of the addresses 0 to 4 (20 R62, R63). -/
def bufFrame (s : State) : Frame :=
  { hh := bufGet s.buf 0, hl := bufGet s.buf 1, th := bufGet s.buf 2, tl := bufGet s.buf 3, ck := bufGet s.buf 4 }

/-- Four bytes in a register, byte 0 in the least significant lane (20 R64). -/
def lanes (b0 b1 b2 b3 : Byte) : Word := b3 ++ b2 ++ b1 ++ b0

/-- Byte `i` of a register (20 R64). -/
def lane (i : Nat) (w : Word) : Byte := w.extractLsb' (8 * i) 8

end Sys2Proof.Machine
end

