-- ==== Sys2Proof/Machine/Flags.lean ====
section
/-! DEFINITION. The flag and code computations: bit classification (spec/40_sequencer.md R124), the checksum
(spec/43_frame_decoder.md R201, R202), the wait's end (spec/42_controller.md R176), and the codes of the status fields
(spec/30_encoding.md R102, spec/60_exceptions.md R231). -/

namespace Sys2Proof.Machine

/-- `classify(W, Y)`: 1 exactly when `W > Y`, unsigned (40 R124). -/
def classify (w y : Word) : Bool := decide (y.toNat < w.toNat)

/-- `sum8(r)` (43 R201). -/
def sum8 (r : Frame) : Byte := r.hh + r.hl + r.th + r.tl

/-- `checksum_ok(r)` (43 R202). -/
def checksumOk (r : Frame) : Bool := decide (r.ck = sum8 r)

/-- Whether the WAIT loop ends: the channel is idle, or the elapsed time has reached the budget (42 R176, 90 C4). -/
def waitEnds (s : State) : Bool :=
  !s.ch.busy || decide (budgetUs s.ctl.config.model ≤ (elapsed (nowUs s) s).toNat)

/-- The code of `STATE` (30 R102). -/
def stateCode : CtlState → BitVec 2
  | .uninit => 0
  | .idle => 1
  | .armed => 2
  | .finishing => 3

/-- The code of `FIN_SUB` (30 R102). -/
def finSubCode : FinSub → BitVec 2
  | .wait => 0
  | .disable => 1
  | .check => 2

/-- The code of `RESULT` (30 R102). -/
def resultCode : ResultCode → BitVec 2
  | .none => 0
  | .ok => 1
  | .timeout => 2
  | .badChecksum => 3

/-- The code of `FAULT_CAUSE` (60 R231). -/
def causeCode : FaultCause → BitVec 4
  | .none => 0
  | .illegalCommand => 1
  | .alreadyInitialised => 2
  | .badBlock => 3
  | .badPin => 4
  | .noFreeUnit => 5
  | .noFreeChannel => 6
  | .noProgramSpace => 7
  | .notInitialised => 8
  | .startNotIdle => 9
  | .finishNotArmed => 10
  | .busyReentry => 11
  | .unrecognisedModel => 12

/-- Writing the five result registers in one step (43 R210). -/
def setReading (r : Reading) (s : State) : State := { s with ctl := { s.ctl with reading := r } }

/-- `RESULT <- NONE; HUM <- 0; TEMP <- 0; TNEG <- 0; TCLAMP <- 0` (42 R162, R164). -/
def clearReading (s : State) : State :=
  setReading { result := .none, hum := 0, temp := 0, tneg := false, tclamp := false } s

/-- `RESULT <- TIMEOUT` with the values 0 (42 R178). -/
def timeoutReading (s : State) : State :=
  setReading { result := .timeout, hum := 0, temp := 0, tneg := false, tclamp := false } s

end Sys2Proof.Machine
end

