-- ==== Sys2Proof/Machine/Channel.lean ====
section
/-! DEFINITION. The transfer channel's own step (spec/41_transfer_channel.md R142, R143). -/

namespace Sys2Proof.Machine

/-- Whether the channel has a step: `CH_BUSY = 1` and OUTQ not empty (41 R142). It does not read `SEQ_EN` (R147). -/
def chEnabled (s : State) : Bool := s.ch.busy && !s.seq.outq.isEmpty

/-- `CH_DST` and `CH_COUNT` after a transfer, and completion on the fifth (41 R143, R144). -/
def chAdvance (c : Chan) : Chan :=
  { busy := decide (c.count - 1 ≠ 0) && c.busy, count := c.count - 1, dst := c.dst + 1 }

/-- `ch_transfer()` (41 R143): pop, write, advance, in one step. A stall where it is not enabled (00 R14). The two
faults stand for states no rule reaches (log 7). -/
def chTransfer (s : State) : Host.Outcome State Fault Refusal :=
  if s.ch.busy = false then .next s
  else
    match s.seq.outq with
    | [] => .next s
    | v :: rest =>
      if s.ch.count = 0 then .fault .chCountZero
      else
        match memWrite s.ch.dst v { s with seq := { s.seq with outq := rest } } with
        | none => .fault (.bufAddress s.ch.dst)
        | some s => .next { s with ch := chAdvance s.ch }

end Sys2Proof.Machine
end

