-- ==== Sys2Proof/Machine/FrameDecoder.lean ====
section
/-! DEFINITION. The frame decoder (spec/43_frame_decoder.md). Values are computed exactly, as a natural for humidity
and an integer for temperature, and narrowed once, in `frameDecode` (R210). -/

namespace Sys2Proof.Machine

/-- The humidity encodings (43 R209). -/
inductive HumEnc where
  | split | scaled
  deriving DecidableEq, Repr

/-- The temperature encodings (43 R209). -/
inductive TempEnc where
  | splitClamp | splitNeg | scaledNeg
  deriving DecidableEq, Repr

/-- A decoded temperature: the value in tenths, `TNEG`, `TCLAMP`. -/
structure Temperature where
  tenths : Int
  tneg : Bool
  tclamp : Bool
  deriving DecidableEq, Repr

/-- `HENC(m)` (43 R209). -/
def humEnc : Model → HumEnc
  | .m0 => .split
  | .m1 => .split
  | .m2 => .scaled
  | .m3 => .scaled

/-- `TENC(m)` (43 R209). -/
def tempEnc : Model → TempEnc
  | .m0 => .splitClamp
  | .m1 => .splitNeg
  | .m2 => .scaledNeg
  | .m3 => .scaledNeg

/-- `humidity(HENC, hh, hl)` in tenths (43 R204, R205). -/
def humidity (e : HumEnc) (hh hl : Byte) : Nat :=
  match e with
  | .split => 10 * hh.toNat + hl.toNat
  | .scaled => hh.toNat * 256 + hl.toNat

/-- The sign bit, bit 7 of temperature-high (43 R203, 90 C1, C3). -/
def signBit (th : Byte) : Bool := th.getLsbD 7

/-- A byte without its bit 7, `b & 0x7F`. -/
def low7 (b : Byte) : Nat := b.toNat % 128

/-- A magnitude negated where the sign bit is set (43 R207, R208). -/
def signedTenths (th : Byte) (mag : Nat) : Temperature :=
  if signBit th then { tenths := -(mag : Int), tneg := true, tclamp := false }
  else { tenths := (mag : Int), tneg := false, tclamp := false }

/-- `temperature(TENC, th, tl)` in tenths: clamped (43 R206), split with byte2 whole (R207, 90 C6), or scaled
sign-magnitude (R208). -/
def temperature (e : TempEnc) (th tl : Byte) : Temperature :=
  match e with
  | .splitClamp =>
    if signBit th then { tenths := 0, tneg := false, tclamp := true }
    else { tenths := ((10 * th.toNat + low7 tl : Nat) : Int), tneg := false, tclamp := false }
  | .splitNeg => signedTenths th (10 * th.toNat + low7 tl)
  | .scaledNeg => signedTenths th (low7 th * 256 + tl.toNat)

/-- `frame_decode(m, r)` (43 R200): on a bad checksum every value is 0. -/
def frameDecode (m : Model) (r : Frame) : Reading :=
  if checksumOk r then
    let t := temperature (tempEnc m) r.th r.tl
    { result := .ok, hum := BitVec.ofNat 16 (humidity (humEnc m) r.hh r.hl), temp := BitVec.ofInt 16 t.tenths
      tneg := t.tneg, tclamp := t.tclamp }
  else { result := .badChecksum, hum := 0, temp := 0, tneg := false, tclamp := false }

end Sys2Proof.Machine
end

