-- ==== Sys2Proof/Machine/Controller.lean ====
section
/-! DEFINITION. The controller's own steps, the FINISH sub-phases (spec/42_controller.md R176 to R178). -/

namespace Sys2Proof.Machine

/-- WAIT: one iteration of the busy-wait loop (42 R176). -/
def ctlWait (s : State) : State :=
  if waitEnds s then { s with ctl := { s.ctl with finSub := .disable } } else s

/-- DISABLE: stop the sequencer and release the pin (42 R177). -/
def ctlDisable (s : State) : State :=
  let s := onSeq seqDisable s
  { s with ctl := { s.ctl with finSub := .check } }

/-- CHECK: the outcome, decided by `CH_BUSY` in this step (42 R178, 90 C5). -/
def ctlCheck (s : State) : State :=
  let s := if s.ch.busy then timeoutReading (chAbort s)
           else setReading (frameDecode s.ctl.config.model (bufFrame s)) s
  { s with ctl := { s.ctl with state := .idle, finSub := .wait } }

/-- The sub-phase step: enabled iff `FATAL = 0` and `STATE = FINISHING` (42 R176 to R178, 60 R237); otherwise the
controller has no step of its own and the state stays (00 R14). -/
def ctlSubPhase (s : State) : State :=
  if s.ctl.fatal = false ∧ s.ctl.state = .finishing then
    match s.ctl.finSub with
    | .wait => ctlWait s
    | .disable => ctlDisable s
    | .check => ctlCheck s
  else s

end Sys2Proof.Machine
end

