-- ==== Sys2Proof/Machine/Commands.lean ====
section
/-! DEFINITION. The meanings of the host commands (spec/42_controller.md R160 to R166). Each `perform...` is the body
the spec writes for its command; each `exec...` is that body inside the command step of R160. A command never stops
the machine: a failing check takes the fatal exception, which is a next state (spec/60_exceptions.md R233). -/

namespace Sys2Proof.Machine

/-- What `INIT` writes once its claims are made (42 R162). -/
def initWrites (m : Model) (u : Bool) (p b uid cid : Nat) (s : State) : State :=
  let s := clearReading (bufZero s)
  { s with
    ctl := { s.ctl with
      config := { model := m, pullUp := u, pin := BitVec.ofNat 5 p, block := BitVec.ofNat 2 b
                  unitId := BitVec.ofNat 4 uid, chanId := BitVec.ofNat 4 cid, progLoaded := true }
      div := sysClkHz s.params / seqClkHz
      startTs := 0
      state := .idle }
    seq := { seqRestart s.seq with seqEn := false, pinDir := false, pull := u }
    ch := { busy := false, count := 0, dst := 0 } }

/-- The claims of `INIT` in the spec's order, none undone when a later one fails (42 R162, 60 R234). -/
def initClaims (w : Word) (m : Model) (u : Bool) (p b : Nat) (s : State) : State :=
  match claimUnit b s with
  | none => fatalEntry .noFreeUnit w s
  | some (uid, s1) =>
    match claimChannel s1 with
    | none => fatalEntry .noFreeChannel w s1
    | some (cid, s2) =>
      match loadProgram b s2 with
      | none => fatalEntry .noProgramSpace w s2
      | some s3 => initWrites m u p b uid cid s3

/-- `INIT(m, u, p, b)` (42 R162). -/
def performInit (w : Word) (m : Model) (u : Bool) (p b : Nat) (s : State) : State :=
  if s.ctl.state ≠ .uninit then fatalEntry .alreadyInitialised w s
  else if numBlocks s.params ≤ b then fatalEntry .badBlock w s
  else if numPins s.params ≤ p then fatalEntry .badPin w s
  else initClaims w m u p b s

/-- `DEINIT()` (42 R163): `PULL`, BUF, the results and `START_TS` stay. -/
def performDeinit (w : Word) (s : State) : State :=
  if s.ctl.state = .uninit then fatalEntry .notInitialised w s
  else
    let c := s.ctl.config
    let s := onSeq seqDisable (releaseChannel c.chanId.toNat (chAbort s))
    let s := unloadProgram c.block.toNat (releaseUnit c.block.toNat c.unitId.toNat s)
    { s with ctl := { s.ctl with config := ConfigReg.reset, state := .uninit } }

/-- `START()` (42 R164), in the source's order within one atomic step. -/
def performStart (w : Word) (s : State) : State :=
  if s.ctl.state ≠ .idle then fatalEntry .startNotIdle w s
  else
    let m := s.ctl.config.model
    let s := onSeq seqRestart (chConfigure (bufZero s))
    let s := onSeq (fun q => { q with inq := queuePush (queuePush q.inq (startTicks m)) (threshTicks s.params m)
                                      seqEn := true }) s
    let s := { s with ctl := { s.ctl with startTs := nowUs s } }
    let s := clearReading s
    { s with ctl := { s.ctl with state := .armed } }

/-- `FINISH()`, the issue step (42 R165). -/
def performFinish (w : Word) (s : State) : State :=
  if s.ctl.state ≠ .armed then fatalEntry .finishNotArmed w s
  else { s with ctl := { s.ctl with state := .finishing, finSub := .wait } }

/-- `DECODE(m)` (42 R166). -/
def performDecode (m : Model) (s : State) : State :=
  setReading (frameDecode m s.ctl.decIn) s

/-- `NOP`: no effect in any state (42 R161). -/
def execNop (s : State) : Host.Outcome State Fault Refusal := .next s

/-- `INIT` as a command step (42 R160, R162). -/
def execInit (model : Model) (pullUp : Bool) (pin block : Nat) (s : State) : Host.Outcome State Fault Refusal :=
  let w := commandWord (.init model pullUp pin block)
  .next (commandStep w (performInit w model pullUp pin block) s)

/-- `DEINIT` as a command step (42 R160, R163). -/
def execDeinit (s : State) : Host.Outcome State Fault Refusal :=
  let w := commandWord .deinit
  .next (commandStep w (performDeinit w) s)

/-- `START` as a command step (42 R160, R164). -/
def execStart (s : State) : Host.Outcome State Fault Refusal :=
  let w := commandWord .start
  .next (commandStep w (performStart w) s)

/-- `FINISH` as a command step (42 R160, R165). -/
def execFinish (s : State) : Host.Outcome State Fault Refusal :=
  let w := commandWord .finish
  .next (commandStep w (performFinish w) s)

/-- `DECODE` as a command step (42 R160, R166). -/
def execDecode (model : Model) (s : State) : Host.Outcome State Fault Refusal :=
  .next (commandStep (commandWord (.decode model)) (performDecode model) s)

end Sys2Proof.Machine
end

