-- ==== Sys2Proof/Machine/Phases.lean ====
section
/-! DEFINITION. The meanings of the sequencer's phases (spec/40_sequencer.md R112 to R122), each one tick. A phase
reads the line sample and the sequencer group and writes the sequencer group alone (R110), so each `tick...` is a
function on that group; whether a tick is taken at all is R110's, in Machine/Agents.lean. -/

namespace Sys2Proof.Machine

/-- R112: wait for INQ word 0, load X. -/
def tickPullStart (q : Seq) : Seq :=
  match q.inq with
  | [] => q
  | v :: rest => { q with x := v, inq := rest, phase := 1 }

/-- R113: wait for INQ word 1, load Y, drive the pin low unless the pulse has length 0. -/
def tickPullThresh (q : Seq) : Seq :=
  match q.inq with
  | [] => q
  | v :: rest =>
    if q.x = 0 then { q with y := v, inq := rest, phase := 3 }
    else { q with y := v, inq := rest, pinDir := true, phase := 2 }

/-- R114: count X, release the pin when the count reaches 0 (the test is after the decrement, 90 C7). -/
def tickDriveLow (q : Seq) : Seq :=
  let q := { q with x := q.x - 1 }
  if q.x = 0 then { q with pinDir := false, phase := 3 } else q

/-- R115, R116, R117, R118: wait until the line reads `level`, then go to `next`. -/
def tickWaitLevel (level : Bool) (next : BitVec 4) (s : Bool) (q : Seq) : Seq :=
  if s = level then { q with phase := next } else q

/-- R119: the rising edge of a data bit, whose tick is the first high sample. -/
def tickWaitBitHigh (s : Bool) (q : Seq) : Seq :=
  if s then { q with w := 1, phase := 8 } else q

/-- R125: shift a bit into the low end of a byte. -/
def shiftIn (isr : Byte) (b : Bool) : Byte := (isr <<< 1) ||| (BitVec.ofBool b).setWidth 8

/-- The next phase after a push: DONE after the 40th bit, else the next bit (R120, R121). -/
def afterPush (nBits : Nat) : BitVec 4 := if nBits = 40 then 10 else 7

/-- R126: push the byte and clear the packing state; the caller has seen that OUTQ has room. -/
def pushByte (byte : Byte) (nBits : Nat) (q : Seq) : Seq :=
  { q with outq := queuePush q.outq byte, isr := 0, bitCnt := 0, phase := afterPush nBits }

/-- R120, the falling edge: pack the classified bit, and push or stall on the eighth. -/
def packBit (b : Bool) (q : Seq) : Seq :=
  let isr := shiftIn q.isr b
  let bc := q.bitCnt + 1
  let nb := q.nBits + 1
  let q := { q with nBits := nb }
  if bc < 8 then { q with isr := isr, bitCnt := bc, phase := 7 }
  else if queueFull q.outq then { q with isr := isr, bitCnt := 8, phase := 9 }
  else pushByte isr nb q

/-- `min(W + 1, 0xFFFFFFFF)` (R120). -/
def satIncr (w : Word) : Word := if w = 0xFFFFFFFF then w else w + 1

/-- R120: count while high; classify and pack on the fall. -/
def tickMeasureHigh (s : Bool) (q : Seq) : Seq :=
  if s then { q with w := satIncr q.w } else packBit (classify q.w q.y) q

/-- R121: retry the push. -/
def tickPushStall (q : Seq) : Seq :=
  if queueFull q.outq then q else pushByte q.isr q.nBits q

/-- `PULL_START` (40 R112). -/
def execPullStart (s : State) : Host.Outcome State Fault Refusal := .next (onSeq tickPullStart s)

/-- `PULL_THRESH` (40 R113). -/
def execPullThresh (s : State) : Host.Outcome State Fault Refusal := .next (onSeq tickPullThresh s)

/-- `DRIVE_LOW` (40 R114). -/
def execDriveLow (s : State) : Host.Outcome State Fault Refusal := .next (onSeq tickDriveLow s)

/-- `WAIT_RELEASE` (40 R115). -/
def execWaitRelease (s : State) : Host.Outcome State Fault Refusal :=
  .next (onSeq (tickWaitLevel true 4 (lineSample s)) s)

/-- `WAIT_ACK_LOW` (40 R116). -/
def execWaitAckLow (s : State) : Host.Outcome State Fault Refusal :=
  .next (onSeq (tickWaitLevel false 5 (lineSample s)) s)

/-- `WAIT_ACK_HIGH` (40 R117). -/
def execWaitAckHigh (s : State) : Host.Outcome State Fault Refusal :=
  .next (onSeq (tickWaitLevel true 6 (lineSample s)) s)

/-- `WAIT_ACK_END` (40 R118). -/
def execWaitAckEnd (s : State) : Host.Outcome State Fault Refusal :=
  .next (onSeq (tickWaitLevel false 7 (lineSample s)) s)

/-- `WAIT_BIT_HIGH` (40 R119). -/
def execWaitBitHigh (s : State) : Host.Outcome State Fault Refusal :=
  .next (onSeq (tickWaitBitHigh (lineSample s)) s)

/-- `MEASURE_HIGH` (40 R120). -/
def execMeasureHigh (s : State) : Host.Outcome State Fault Refusal :=
  .next (onSeq (tickMeasureHigh (lineSample s)) s)

/-- `PUSH_STALL` (40 R121). -/
def execPushStall (s : State) : Host.Outcome State Fault Refusal := .next (onSeq tickPushStall s)

/-- `DONE`: no change (40 R122). -/
def execDone (s : State) : Host.Outcome State Fault Refusal := .next s

end Sys2Proof.Machine
end

