-- ==== Sys2Proof/Machine/Dispatch.lean ====
section
/-! DEFINITION. The dispatch: one arm per instruction, each one call of its meaning. -/

namespace Sys2Proof.Machine

def exec (i : Instr) (s : State) : Host.Outcome State Fault Refusal :=
  match i with
  | .nop => Sys2Proof.Machine.execNop s
  | .init model pullUp pin block => Sys2Proof.Machine.execInit model pullUp pin block s
  | .deinit => Sys2Proof.Machine.execDeinit s
  | .start => Sys2Proof.Machine.execStart s
  | .finish => Sys2Proof.Machine.execFinish s
  | .decode model => Sys2Proof.Machine.execDecode model s
  | .pullStart => Sys2Proof.Machine.execPullStart s
  | .pullThresh => Sys2Proof.Machine.execPullThresh s
  | .driveLow => Sys2Proof.Machine.execDriveLow s
  | .waitRelease => Sys2Proof.Machine.execWaitRelease s
  | .waitAckLow => Sys2Proof.Machine.execWaitAckLow s
  | .waitAckHigh => Sys2Proof.Machine.execWaitAckHigh s
  | .waitAckEnd => Sys2Proof.Machine.execWaitAckEnd s
  | .waitBitHigh => Sys2Proof.Machine.execWaitBitHigh s
  | .measureHigh => Sys2Proof.Machine.execMeasureHigh s
  | .pushStall => Sys2Proof.Machine.execPushStall s
  | .done => Sys2Proof.Machine.execDone s

end Sys2Proof.Machine
end

