-- ==== Sys2Proof/Machine/Registers.lean ====
section
/-! DEFINITION. The host register window (spec/30_encoding.md R90 to R103): what each register reads, and the writes
that are not commands. Each register is written as its fields from bit 31 down. -/

namespace Sys2Proof.Machine

/-- `STATUS`, 0x04 (30 R91). -/
def statusReg (s : State) : Word :=
  0#17 ++ BitVec.ofBool s.seq.pull ++ resultCode s.ctl.reading.result ++ causeCode s.ctl.faultCause
    ++ BitVec.ofBool s.seq.pinDir ++ BitVec.ofBool s.ctl.fatal ++ BitVec.ofBool s.ch.busy
    ++ BitVec.ofBool s.seq.seqEn ++ finSubCode s.ctl.finSub ++ stateCode s.ctl.state

/-- `CONFIG`, 0x08 (30 R92). -/
def configReg (s : State) : Word :=
  let c := s.ctl.config
  BitVec.ofBool c.progLoaded ++ 0#3 ++ c.chanId ++ 0#4 ++ c.unitId ++ 0#1 ++ c.block ++ c.pin ++ 0#5
    ++ BitVec.ofBool c.pullUp ++ modelCode c.model

/-- `RAW0_3`, 0x10 (30 R94). -/
def raw03Reg (s : State) : Word :=
  let f := bufFrame s
  lanes f.hh f.hl f.th f.tl

/-- `RAW4`, 0x14 (30 R94). -/
def raw4Reg (s : State) : Word := 0#24 ++ (bufFrame s).ck

/-- `HUM`, 0x18 (30 R95). -/
def humReg (s : State) : Word := 0#16 ++ s.ctl.reading.hum

/-- `TEMP`, 0x1C (30 R96). -/
def tempReg (s : State) : Word :=
  0#14 ++ BitVec.ofBool s.ctl.reading.tclamp ++ BitVec.ofBool s.ctl.reading.tneg ++ s.ctl.reading.temp

/-- `DEC_IN0`, 0x20 (30 R97). -/
def decIn0Reg (s : State) : Word :=
  let f := s.ctl.decIn
  lanes f.hh f.hl f.th f.tl

/-- `DEC_IN1`, 0x24 (30 R97). -/
def decIn1Reg (s : State) : Word := 0#24 ++ s.ctl.decIn.ck

/-- A debug register reads 0 while `STATE = UNINIT` (30 R99 to R101). -/
def debugView (s : State) (v : Word) : Word := if s.ctl.state = .uninit then 0 else v

/-- `SEQ_DBG`, 0x2C (30 R99). -/
def seqDbgReg (s : State) : Word :=
  debugView s (s.seq.isr ++ BitVec.ofBool s.seq.seqEn ++ BitVec.ofNat 3 s.seq.outq.length ++ 0#1
    ++ BitVec.ofNat 3 s.seq.inq.length ++ 0#2 ++ BitVec.ofNat 6 s.seq.nBits ++ BitVec.ofNat 4 s.seq.bitCnt
    ++ s.seq.phase)

/-- `CH_DBG`, 0x30 (30 R100). -/
def chDbgReg (s : State) : Word :=
  debugView s (0#23 ++ BitVec.ofBool s.ch.busy ++ 0#1 ++ BitVec.ofNat 3 s.ch.dst ++ 0#1 ++ BitVec.ofNat 3 s.ch.count)

/-- `ID`, 0x40 (30 R101). -/
def idReg : Word := 0x44485401

/-- What a host read at `offset` returns (30 R90); `CMD` and every offset without a register read 0 (30 R103, 20 R69).
No read changes the state (20 R68). -/
def readReg (s : State) (offset : Nat) : Word :=
  match offset with
  | 0x00 => 0
  | 0x04 => statusReg s
  | 0x08 => configReg s
  | 0x0C => s.ctl.startTs
  | 0x10 => raw03Reg s
  | 0x14 => raw4Reg s
  | 0x18 => humReg s
  | 0x1C => tempReg s
  | 0x20 => decIn0Reg s
  | 0x24 => decIn1Reg s
  | 0x28 => s.ctl.faultInfo
  | 0x2C => seqDbgReg s
  | 0x30 => chDbgReg s
  | 0x34 => debugView s s.seq.x
  | 0x38 => debugView s s.seq.y
  | 0x3C => debugView s s.seq.w
  | 0x40 => idReg
  | _ => 0

/-- Where the platform maps the register at `offset`: `P_CORE_BASE + offset` (20 R69, 30 R90; log 18). -/
def regAddress (p : Params) (offset : Nat) : Nat := p.coreBase + offset

/-- A write of `DEC_IN0` sets four bytes (30 R97). -/
def writeDecIn0 (v : Word) (s : State) : State :=
  { s with ctl := { s.ctl with decIn :=
    { s.ctl.decIn with hh := lane 0 v, hl := lane 1 v, th := lane 2 v, tl := lane 3 v } } }

/-- A write of `DEC_IN1` sets one byte; its bits 31 to 8 are ignored (30 R97). -/
def writeDecIn1 (v : Word) (s : State) : State :=
  { s with ctl := { s.ctl with decIn := { s.ctl.decIn with ck := lane 0 v } } }

end Sys2Proof.Machine
end

