-- ==== Sys2Proof/Machine/Agents.lean ====
section
/-! DEFINITION. The agents' steps and the choice of the next one (spec/00_scope.md R6, R12 to R14): the host's
accesses (spec/20_memory.md R66 to R70, spec/42_controller.md R160), the sequencer's tick (spec/40_sequencer.md R110),
and the event that comes next. -/

namespace Sys2Proof.Machine

/-- `host_write_cmd(w)` (42 R160): ignored while FATAL, an illegal word is fatal, any other word is its command's
step. -/
def hostWriteCmd (w : Word) (s : State) : Host.Outcome State Fault Refusal :=
  if s.ctl.fatal then .next s
  else
    match decode (.command w) with
    | .error _ => .next (illegalCommand w s)
    | .ok i => exec i s

/-- A host access has a meaning only as an aligned 32-bit access (20 R66, R70). -/
def hostAccess (width offset : Nat) (access : State → Host.Outcome State Fault Refusal) (s : State) :
    Host.Outcome State Fault Refusal :=
  if width ≠ 32 then .refused (.accessWidth width)
  else if offset % 4 ≠ 0 then .refused (.accessAlignment offset)
  else access s

/-- A write at `offset`: `CMD`, the decode operand, or nothing (20 R68, 30 R97, R103). -/
def writeReg (offset : Nat) (v : Word) (s : State) : Host.Outcome State Fault Refusal :=
  match offset with
  | 0x00 => hostWriteCmd v s
  | 0x20 => .next (writeDecIn0 v s)
  | 0x24 => .next (writeDecIn1 v s)
  | _ => .next s

/-- A read at `offset`, which only hands its word to the host (20 R68; log 10). -/
def hostReadReg (offset : Nat) (s : State) : Host.Outcome State Fault Refusal :=
  .next { s with env := { s.env with hostData := readReg s offset } }

/-- `seq_tick()` (40 R110): no step while `SEQ_EN = 0`; otherwise `PHASE` alone selects the phase. A reserved phase is
stuck: the tick changes nothing (40 R123; log 5). -/
def seqTick (s : State) : Host.Outcome State Fault Refusal :=
  if s.seq.seqEn then
    match decode (.phase s.seq.phase) with
    | .error _ => .next s
    | .ok i => exec i s
  else .next s

/-- One action on a state that holds its draws. -/
def act (a : Action) (s : State) : Host.Outcome State Fault Refusal :=
  match a with
  | .hostWrite width offset v => hostAccess width offset (writeReg offset v) s
  | .hostRead width offset => hostAccess width offset (hostReadReg offset) s
  | .seqTick => seqTick s
  | .chStep => chTransfer s
  | .ctlStep => .next (ctlSubPhase s)
  | .peerClaimUnit b u => .next (peerClaimUnit b u s)
  | .peerReleaseUnit b u => .next (peerReleaseUnit b u s)
  | .peerClaimChannel c => .next (peerClaimChannel c s)
  | .peerReleaseChannel c => .next (peerReleaseChannel c s)
  | .blockReset => .next (blockReset s)
  | .platformReset => .next (platformReset s)

/-- The next event: the head of the agenda, or the next free event where the agenda is empty (00 R6; log 1). -/
def nextEvent (s : State) : Event :=
  match s.env.agenda with
  | e :: _ => e
  | [] => Config.freeEvent s.env.eventNo

/-- The state once its next event is taken. -/
def takeEvent (s : State) : State :=
  match s.env.agenda with
  | _ :: rest => { s with env := { s.env with agenda := rest } }
  | [] => { s with env := { s.env with eventNo := s.env.eventNo + 1 } }

/-- The draws of a step: latched, and the clock advanced, so that it never goes back (00 R13, 60 R244; log 2). -/
def latchDraws (d : Draws) (s : State) : State :=
  { s with env := { s.env with draws := d, clock := s.env.clock + d.elapse } }

/-- The state in which the next action is performed. -/
def prepare (s : State) : State := latchDraws (nextEvent s).draws (takeEvent s)

/-- One step of the interleaving. -/
def agentStep (s : State) : Host.Outcome State Fault Refusal :=
  act (nextEvent s).action (prepare s)

/-- The draws of a placed event: those the state holds, with no time passing. -/
def placedDraws (s : State) : Draws := { s.env.draws with elapse := 0 }

/-- `s` with `a` as its next event. -/
def place (a : Action) (s : State) : State :=
  { s with env := { s.env with agenda := { action := a, draws := placedDraws s } :: s.env.agenda } }

/-- `s` with a table word placed where the next step takes its instruction: a command word as the host's next write
to `CMD`, a phase code in `PHASE` of an enabled sequencer whose tick comes next (log 4). -/
def placeCode (c : Code) (s : State) : State :=
  match c with
  | .command w => place (.hostWrite 32 0x00 w) s
  | .phase p => place .seqTick { s with seq := { s.seq with phase := p, seqEn := true } }

end Sys2Proof.Machine
end

