-- ==== Sys2Proof/Machine/Step.lean ====
section
/-! DEFINITION. One step of the machine, and where it takes its next instruction (log 1, 4). -/

namespace Sys2Proof.Machine

/-- One step: the next event of the interleaving, performed by its agent (spec/00_scope.md R6). -/
def step (s : State) : Host.Outcome State Fault Refusal := agentStep s

/-- `s` with the opcode table's word `w` as the instruction of the next step. -/
def State.withFetchWord (s : State) (nbits w : Nat) : State := placeCode (tableCode nbits w) s

end Sys2Proof.Machine
end

