-- ==== Sys2Proof/Safety.lean ====
section
/-! DEFINITION. What counts as a good state and a safe run: the invariants of spec/10_state.md R44 and of the rules
around it, grouped as the state is, and the relation between the wire and the buffer of spec/40_sequencer.md R130. -/

namespace Sys2Proof.Machine

/-- The controller's invariants: 10 R22, R23, R25, R26 and R44 (a), (b), and that DISABLE
has stopped the sequencer before CHECK (42 R177). They hold in the fatal state too. -/
structure CtlInv (s : State) : Prop where
  finSub : s.ctl.state ≠ .finishing → s.ctl.finSub = .wait
  noFault : s.ctl.fatal = false → s.ctl.faultCause = .none ∧ s.ctl.faultInfo = 0
  noResult : s.ctl.reading.result ≠ .ok →
    s.ctl.reading.hum = 0 ∧ s.ctl.reading.temp = 0 ∧ s.ctl.reading.tneg = false ∧ s.ctl.reading.tclamp = false
  quiet : s.ctl.state = .uninit ∨ s.ctl.state = .idle →
    s.seq.seqEn = false ∧ s.ch.busy = false ∧ s.seq.pinDir = false
  stopped : s.ctl.finSub = .check → s.seq.seqEn = false ∧ s.seq.pinDir = false
  unconfigured : s.ctl.state = .uninit → s.ctl.config = ConfigReg.reset
  configured : s.ctl.state ≠ .uninit → s.ctl.config.progLoaded = true

/-- The sequencer's invariants: 10 R35, R36, R42 and R44 (d), (e), with what each phase says of the packing state
(40 R112 to R123). -/
structure SeqInv (s : State) : Prop where
  inqLevel : s.seq.inq.length ≤ queueDepth
  outqLevel : s.seq.outq.length ≤ queueDepth
  legalPhase : s.seq.phase.toNat ≤ 10
  beforeBits : s.seq.phase.toNat ≤ 6 → s.seq.nBits = 0
  duringBits : s.seq.phase = 7 ∨ s.seq.phase = 8 → s.seq.bitCnt < 8 ∧ s.seq.nBits < 40
  stalled : s.seq.phase = 9 → s.seq.bitCnt = 8 ∧ s.seq.nBits = 40
  finished : s.seq.phase = 10 → s.seq.bitCnt = 0 ∧ s.seq.nBits = 40
  pushed : s.seq.nBits = 8 * (s.ch.dst + s.seq.outq.length) + s.seq.bitCnt
  pulse : s.seq.phase = 2 → s.seq.x ≠ 0
  driven : s.seq.pinDir = true → s.seq.phase = 2
  firstWord : s.seq.seqEn = true → s.seq.phase = 0 → s.seq.inq.length = 2
  secondWord : s.seq.seqEn = true → s.seq.phase = 1 → s.seq.inq.length = 1

/-- The channel's invariants: 10 R44 (c) and 41 R143's corner case. -/
structure ChanInv (s : State) : Prop where
  total : s.ch.dst + s.ch.count ≤ 5
  measuring : s.ctl.state = .armed ∨ s.ctl.state = .finishing → s.ch.dst + s.ch.count = 5
  running : s.ch.busy = true → s.ch.dst + s.ch.count = 5 ∧ 1 ≤ s.ch.count

/-- The allocator's invariants (60 R246, R247, R249, R250): what an instance holds is claimed, and no peer holds
this instance's unit or channel. -/
structure AllocInv (s : State) : Prop where
  peerUnits : ∀ p, p ∈ s.env.peerUnits → p ∈ s.alloc.units
  peerChans : ∀ c, c ∈ s.env.peerChans → c ∈ s.alloc.chans
  ownUnit : s.ctl.state ≠ .uninit →
    (s.ctl.config.block.toNat, s.ctl.config.unitId.toNat) ∈ s.alloc.units ∧
    (s.ctl.config.block.toNat, s.ctl.config.unitId.toNat) ∉ s.env.peerUnits
  ownChan : s.ctl.state ≠ .uninit →
    s.ctl.config.chanId.toNat ∈ s.alloc.chans ∧ s.ctl.config.chanId.toNat ∉ s.env.peerChans

/-- The machine's invariant. -/
structure StateInv (s : State) : Prop where
  ctl : CtlInv s
  seq : SeqInv s
  chan : ChanInv s
  alloc : AllocInv s
  buf : Memory.wf s.buf = true

/-- A safe state: no fatal fault has been raised (60 R233). -/
abbrev SafeState (s : State) : Prop := s.ctl.fatal = false

/-- The byte that eight wire bits make, the first the most significant (40 R125, 20 R63); fewer bits fill the low
end. -/
def packByte (bits : List Bool) : Byte := bits.foldl shiftIn 0

/-- The bytes that a list of wire bits completes, and the bits left over. -/
def packBits : List Bool → List Byte × List Bool
  | b0 :: b1 :: b2 :: b3 :: b4 :: b5 :: b6 :: b7 :: rest =>
    let r := packBits rest
    (packByte [b0, b1, b2, b3, b4, b5, b6, b7] :: r.1, r.2)
  | bits => ([], bits)

/-- The first `n` bytes of the raw buffer. -/
def bufPrefix (s : State) (n : Nat) : List Byte := (List.range n).map (bufGet s.buf)

/-- The bytes the sequencer has completed since its restart, in order: those the channel has moved, those still in
OUTQ, and the one a full OUTQ holds back in ISR (40 R121, R126, 41 R143). -/
def bytesSeen (s : State) : List Byte :=
  bufPrefix s s.ch.dst ++ s.seq.outq ++ (if s.seq.bitCnt = 8 then [s.seq.isr] else [])

/-- `bits` are the bits classified since the sequencer's restart, in order (40 R130): the completed bytes pack them
most significant bit first, and ISR packs the rest. -/
def Captured (s : State) (bits : List Bool) : Prop :=
  bits.length = s.seq.nBits ∧ bytesSeen s = (packBits bits).1 ∧
    (s.seq.bitCnt < 8 → s.seq.isr = packByte (packBits bits).2)

end Sys2Proof.Machine
end

