-- ==== Sys2Proof/Certificates/Slice0/Obligations.lean ====
section
/-! DEFINITION. The statements for the provers. Each says what a rule of spec/ says the block does, over every state;
each full equation of a next state is at once the result, the frame and the completion of its instruction. `s`, `t` are
states, `e` events; `prepare s` is `s` with its next event taken and that event's draws latched (log 1, 2). -/

open Sys2Proof Sys2Proof.Machine

/-! ## Encoding -/

/-- Decoding the encoding of a well-formed instruction gives it back, for every command with every operand and every
phase (30 R81 to R85, R89, R104). -/
def Obligations.DecodeOfEncodeIsIdentity : Prop :=
  ∀ i : Instr, i.wellFormed = true → decode (encode i) = .ok i

/-- The other direction: a code has at most one reading, and that reading is well-formed and has no other code, so the
word `FAULT_INFO` records is the word written (30 R83; log 9). -/
def Obligations.EncodeOfDecodeIsIdentity : Prop :=
  ∀ (c : Code) (i : Instr), decode c = .ok i → i.wellFormed = true ∧ encode i = c

/-- 30 R83: a command word is legal exactly when it selects one of the six rows by match and mask. -/
def Obligations.LegalWordsAreTheTableRows : Prop :=
  ∀ w : Word, (∃ i, decode (.command w) = .ok i) ↔
    (w = 0x00000000 ∨ w &&& 0xFFFF808F = 0x00000001 ∨ w = 0x00000002 ∨ w = 0x00000003 ∨ w = 0x00000004 ∨
      w &&& 0xFFFFFFCF = 0x00000005)

/-- 30 R84, R85: the operands of a legal INIT or DECODE word are its unsigned fields, and the codes 0 to 3 are the
models M0 to M3. -/
def Obligations.OperandsAreTheWordFields : Prop :=
  (∀ (w : Word) (m : Model) (u : Bool) (p b : Nat), decode (.command w) = .ok (.init m u p b) →
    w.toNat / 16 % 4 = (match m with | .m0 => 0 | .m1 => 1 | .m2 => 2 | .m3 => 3) ∧
      u = w.getLsbD 6 ∧ p = w.toNat / 256 % 32 ∧ b = w.toNat / 8192 % 4) ∧
  (∀ (w : Word) (m : Model), decode (.command w) = .ok (.decode m) →
    w.toNat / 16 % 4 = (match m with | .m0 => 0 | .m1 => 1 | .m2 => 2 | .m3 => 3))

/-- Words of spec/95_test_vectors.md's CMD-DEC table and phase codes of 30 R89 decode as they stand there. -/
def Obligations.SampleCodesDecode : Prop :=
  decode (.command 0x00000000) = .ok .nop ∧
  decode (.command 0x00000F71) = .ok (.init .m3 true 15 0) ∧
  decode (.command 0x00002241) = .ok (.init .m0 true 2 1) ∧
  decode (.command 0x00000002) = .ok .deinit ∧
  decode (.command 0x00000035) = .ok (.decode .m3) ∧
  decode (.command 0x00000081) = .error (.reservedBits 1) ∧
  decode (.command 0x0000000F) = .error (.reservedOp 15) ∧
  decode (.phase 2) = .ok .driveLow ∧
  decode (.phase 10) = .ok .done ∧
  decode (.phase 12) = .error (.reservedPhase 12)

/-! ## The step -/

/-- Where the next event comes from and what taking it changes: the head of the agenda, or the free event, with its
draws latched and the clock advanced by a natural, so that it never goes back (log 1, 2; 60 R244). -/
def Obligations.NextEventIsTakenInOrder : Prop :=
  (∀ (s : State) (e : Event) (rest : List Event), s.env.agenda = e :: rest →
    nextEvent s = e ∧ prepare s = { s with env := { s.env with
      agenda := rest, draws := e.draws, clock := s.env.clock + e.draws.elapse } }) ∧
  (∀ s : State, s.env.agenda = [] →
    nextEvent s = Config.freeEvent s.env.eventNo ∧ prepare s = { s with env := { s.env with
      eventNo := s.env.eventNo + 1, draws := (Config.freeEvent s.env.eventNo).draws
      clock := s.env.clock + (Config.freeEvent s.env.eventNo).draws.elapse } })

/-- When the host's next access writes a legal word to CMD, the step is that instruction's meaning. -/
def Obligations.StepRunsTheCommandWritten : Prop :=
  ∀ (s : State) (w : Word) (i : Instr), (nextEvent s).action = .hostWrite 32 0x00 w →
    decode (.command w) = .ok i → step s = exec i (prepare s)

/-- When a tick comes next and the sequencer is enabled, the step is the meaning of the phase in `PHASE` (40 R110). -/
def Obligations.StepRunsThePhaseHeld : Prop :=
  ∀ (s : State) (i : Instr), (nextEvent s).action = .seqTick → s.seq.seqEn = true →
    decode (.phase s.seq.phase) = .ok i → step s = exec i (prepare s)

/-- 30 R86: an illegal word written to CMD is fatal with its own word, unless the block is fatal already. -/
def Obligations.IllegalCommandIsFatal : Prop :=
  ∀ (s : State) (w : Word), (nextEvent s).action = .hostWrite 32 0x00 w →
    (∀ i, decode (.command w) ≠ .ok i) →
    (s.ctl.fatal = false → step s = .next (fatalEntry .illegalCommand w (prepare s))) ∧
    (s.ctl.fatal = true → step s = .next (prepare s))

/-- An agent whose step is not enabled leaves the state as it is (00 R14): the disabled sequencer and the reserved
phases (40 R110, R123), the idle or starved channel (41 R142), the controller outside FINISHING or in the fatal state
(42 R176 to R178). -/
def Obligations.AgentsNotEnabledStall : Prop :=
  ∀ s : State,
    ((nextEvent s).action = .seqTick → s.seq.seqEn = false ∨ 11 ≤ s.seq.phase.toNat → step s = .next (prepare s)) ∧
    ((nextEvent s).action = .chStep → s.ch.busy = false ∨ s.seq.outq = [] → step s = .next (prepare s)) ∧
    ((nextEvent s).action = .ctlStep → s.ctl.fatal = true ∨ s.ctl.state ≠ .finishing → step s = .next (prepare s))

/-! ## The commands -/

/-- 42 R161 and 40 R122: the command NOP changes nothing, in any state, and neither does the phase DONE. -/
def Obligations.NopAndDoneChangeNothing : Prop :=
  ∀ s : State, exec .nop s = .next s ∧ exec .done s = .next s

/-- 42 R162, the case where every check passes: the unit and the channel claimed are free ones, the drawn ones where
those are free; the whole state after it, and BUF reads 0 everywhere. The claims as lists, and the list of programs
held, are the model's form (log 24, log 12). -/
def Obligations.InitConfiguresTheInstance : Prop :=
  ∀ (s : State) (m : Model) (u : Bool) (p b : Nat), s.ctl.fatal = false → s.ctl.state = .uninit →
    b < numBlocks s.params → p < numPins s.params → freeUnits b s ≠ [] → freeChannels s ≠ [] →
    s.env.draws.loadOk = true →
    ∃ (uid cid : Nat) (t : State), exec (.init m u p b) s = .next t ∧
      uid < unitsPerBlock s.params ∧ (b, uid) ∉ s.alloc.units ∧
      (s.env.draws.unitPick ∈ freeUnits b s → uid = s.env.draws.unitPick) ∧
      cid < numChannels s.params ∧ cid ∉ s.alloc.chans ∧
      (s.env.draws.chanPick ∈ freeChannels s → cid = s.env.draws.chanPick) ∧
      (∀ a, bufGet t.buf a = 0) ∧
      t = { s with
        ctl := { s.ctl with
          state := .idle
          config := { model := m, pullUp := u, pin := BitVec.ofNat 5 p, block := BitVec.ofNat 2 b
                      unitId := BitVec.ofNat 4 uid, chanId := BitVec.ofNat 4 cid, progLoaded := true }
          div := s.params.sysClkMHzLess1 + 1
          startTs := 0
          reading := { result := .none, hum := 0, temp := 0, tneg := false, tclamp := false } }
        seq := { seqEn := false, phase := 0, x := 0, y := 0, w := 0, isr := 0, bitCnt := 0, nBits := 0
                 inq := [], outq := [], pinDir := false, pull := u }
        ch := { busy := false, count := 0, dst := 0 }
        buf := []
        alloc := { units := (b, uid) :: s.alloc.units, chans := cid :: s.alloc.chans, progs := b :: s.alloc.progs } }

/-- 42 R162 with 60 R231, R234 and R238: the checks of INIT in their order, each fatal with INIT's own word, and the
claims made before a failing one kept (as lists: log 24). -/
def Obligations.InitChecksInOrder : Prop :=
  ∀ (s : State) (m : Model) (u : Bool) (p b : Nat), s.ctl.fatal = false → s.ctl.state ≠ .finishing →
    (s.ctl.state ≠ .uninit →
      exec (.init m u p b) s = .next (fatalEntry .alreadyInitialised (initWord m u p b) s)) ∧
    (s.ctl.state = .uninit → numBlocks s.params ≤ b →
      exec (.init m u p b) s = .next (fatalEntry .badBlock (initWord m u p b) s)) ∧
    (s.ctl.state = .uninit → b < numBlocks s.params → numPins s.params ≤ p →
      exec (.init m u p b) s = .next (fatalEntry .badPin (initWord m u p b) s)) ∧
    (s.ctl.state = .uninit → b < numBlocks s.params → p < numPins s.params → freeUnits b s = [] →
      exec (.init m u p b) s = .next (fatalEntry .noFreeUnit (initWord m u p b) s)) ∧
    (s.ctl.state = .uninit → b < numBlocks s.params → p < numPins s.params → freeUnits b s ≠ [] →
      freeChannels s = [] → ∃ uid ∈ freeUnits b s,
        exec (.init m u p b) s = .next (fatalEntry .noFreeChannel (initWord m u p b)
          { s with alloc := { s.alloc with units := (b, uid) :: s.alloc.units } })) ∧
    (s.ctl.state = .uninit → b < numBlocks s.params → p < numPins s.params → freeUnits b s ≠ [] →
      freeChannels s ≠ [] → s.env.draws.loadOk = false → ∃ uid ∈ freeUnits b s, ∃ cid ∈ freeChannels s,
        exec (.init m u p b) s = .next (fatalEntry .noProgramSpace (initWord m u p b)
          { s with alloc := { s.alloc with units := (b, uid) :: s.alloc.units, chans := cid :: s.alloc.chans } }))

/-- 42 R163 with 41 R145 and 60 R249: DEINIT, with its faults. PULL, BUF, the results and START_TS stay. That the
claims are lists whose entries of the released ids go, and that the list of programs held loses one entry of the block,
is the model's choice (log 24, log 12). -/
def Obligations.DeinitReleasesEverything : Prop :=
  ∀ s : State, s.ctl.fatal = false →
    (s.ctl.state = .finishing → exec .deinit s = .next (fatalEntry .busyReentry 0x00000002 s)) ∧
    (s.ctl.state = .uninit → exec .deinit s = .next (fatalEntry .notInitialised 0x00000002 s)) ∧
    (s.ctl.state = .idle ∨ s.ctl.state = .armed → exec .deinit s = .next { s with
      ctl := { s.ctl with
        state := .uninit
        config := { model := .m0, pullUp := false, pin := 0, block := 0, unitId := 0, chanId := 0
                    progLoaded := false } }
      seq := { s.seq with seqEn := false, pinDir := false }
      ch := { s.ch with busy := false }
      alloc := {
        units := s.alloc.units.filter
          (fun x => decide (x ≠ (s.ctl.config.block.toNat, s.ctl.config.unitId.toNat)))
        chans := s.alloc.chans.filter (fun x => decide (x ≠ s.ctl.config.chanId.toNat))
        progs := s.alloc.progs.erase s.ctl.config.block.toNat } })

/-- 42 R164: START, with its faults, in one atomic step; BUF reads 0 everywhere, and the timing words are the start
pulse and the threshold of the configured model, in that order. That START completes with a
free word for a threshold that 32 bits do not hold is the model's choice (log 16): the spec states no word there. -/
def Obligations.StartArmsTheMeasurement : Prop :=
  ∀ s : State, s.ctl.fatal = false →
    (s.ctl.state = .finishing → exec .start s = .next (fatalEntry .busyReentry 0x00000003 s)) ∧
    (s.ctl.state = .uninit ∨ s.ctl.state = .armed →
      exec .start s = .next (fatalEntry .startNotIdle 0x00000003 s)) ∧
    (s.ctl.state = .idle → ∃ (t : State) (thresh : Word), exec .start s = .next t ∧
      (∀ us : Nat, us < 2 ^ 32 → us = (match s.ctl.config.model with
          | .m0 => s.params.threshM0
          | .m1 => s.params.threshM1
          | .m2 => s.params.threshM2
          | .m3 => s.params.threshM3) → thresh.toNat = us) ∧
      (∀ a, bufGet t.buf a = 0) ∧
      t = { s with
        ctl := { s.ctl with
          state := .armed
          startTs := BitVec.ofNat 32 s.env.clock
          reading := { result := .none, hum := 0, temp := 0, tneg := false, tclamp := false } }
        seq := { s.seq with
          seqEn := true, phase := 0, x := 0, y := 0, w := 0, isr := 0, bitCnt := 0, nBits := 0
          inq := [match s.ctl.config.model with | .m0 => 18000 | .m1 => 18000 | .m2 => 1000 | .m3 => 1000, thresh]
          outq := [], pinDir := false }
        ch := { busy := true, count := 5, dst := 0 }
        buf := [] })

/-- 42 R165: FINISH, with its faults. -/
def Obligations.FinishStartsTheWait : Prop :=
  ∀ s : State, s.ctl.fatal = false →
    (s.ctl.state = .finishing → exec .finish s = .next (fatalEntry .busyReentry 0x00000004 s)) ∧
    (s.ctl.state = .uninit ∨ s.ctl.state = .idle →
      exec .finish s = .next (fatalEntry .finishNotArmed 0x00000004 s)) ∧
    (s.ctl.state = .armed →
      exec .finish s = .next { s with ctl := { s.ctl with state := .finishing, finSub := .wait } })

/-- 42 R166: DECODE writes the decoder's result for the operand bytes and nothing else; BUSY_REENTRY while
FINISHING. -/
def Obligations.DecodeWritesTheReading : Prop :=
  ∀ (s : State) (m : Model), s.ctl.fatal = false →
    (s.ctl.state ≠ .finishing →
      exec (.decode m) s = .next { s with ctl := { s.ctl with reading := frameDecode m s.ctl.decIn } }) ∧
    (s.ctl.state = .finishing →
      exec (.decode m) s = .next (fatalEntry .busyReentry (decodeWord m) s))

/-- 42 R160 and 60 R238: while FINISHING every command but NOP is BUSY_REENTRY with its own word, INIT's state check
included. -/
def Obligations.CommandsDuringFinishAreReentry : Prop :=
  ∀ (s : State) (i : Instr) (w : Word), s.ctl.fatal = false → s.ctl.state = .finishing →
    encode i = .command w → i ≠ .nop → exec i s = .next (fatalEntry .busyReentry w s)

/-- 60 R233: what entering the fatal state writes, and that it writes nothing else. -/
def Obligations.FatalEntryRecordsTheCause : Prop :=
  ∀ (s : State) (cause : FaultCause) (w : Word), fatalEntry cause w s =
    { s with ctl := { s.ctl with fatal := true, faultCause := cause, faultInfo := w } }

/-- 60 R236: in the fatal state every word written to CMD is ignored, and the decode operand can still be written. -/
def Obligations.FatalStateIgnoresCommands : Prop :=
  ∀ (s : State) (w : Word), s.ctl.fatal = true →
    ((nextEvent s).action = .hostWrite 32 0x00 w → step s = .next (prepare s)) ∧
    ((nextEvent s).action = .hostWrite 32 0x20 w → ∃ t, step s = .next t ∧
      t.ctl = { s.ctl with decIn := { s.ctl.decIn with
        hh := w.extractLsb' 0 8, hl := w.extractLsb' 8 8, th := w.extractLsb' 16 8, tl := w.extractLsb' 24 8 } }) ∧
    ((nextEvent s).action = .hostWrite 32 0x24 w → ∃ t, step s = .next t ∧
      t.ctl = { s.ctl with decIn := { s.ctl.decIn with ck := w.extractLsb' 0 8 } })

/-- 60 R235: no step but a reset leaves the fatal state or changes the recorded cause and word. -/
def Obligations.FatalStateLastsUntilReset : Prop :=
  ∀ s t : State, s.ctl.fatal = true → step s = .next t →
    (nextEvent s).action = .blockReset ∨ (nextEvent s).action = .platformReset ∨
    (t.ctl.fatal = true ∧ t.ctl.faultCause = s.ctl.faultCause ∧ t.ctl.faultInfo = s.ctl.faultInfo)

/-- 60 R230: only a command written to CMD enters the fatal state; no tick, no channel step, no FINISH sub-phase and no
read does. -/
def Obligations.OnlyCommandsEnterTheFatalState : Prop :=
  ∀ s t : State, s.ctl.fatal = false → step s = .next t → t.ctl.fatal = true →
    ∃ w, (nextEvent s).action = .hostWrite 32 0x00 w ∧ t.ctl.faultInfo = w

/-- 60 R234: a command that faults changes nothing of the instance but FATAL, FAULT_CAUSE and FAULT_INFO; only INIT
can leave claims behind. -/
def Obligations.FaultsArePrecise : Prop :=
  ∀ (s t : State) (i : Instr), s.ctl.fatal = false → exec i s = .next t → t.ctl.fatal = true →
    t = { s with
      ctl := { s.ctl with fatal := true, faultCause := t.ctl.faultCause, faultInfo := t.ctl.faultInfo }
      alloc := t.alloc } ∧
    encode i = .command t.ctl.faultInfo ∧
    ((∀ m u p b, i ≠ .init m u p b) → t.alloc = s.alloc)

/-! ## The sequencer's phases -/

/-- 40 R112 and R113: PULL_START and PULL_THRESH wait for their timing word, take the oldest one, and the second drives
the pin unless the start pulse has length 0. -/
def Obligations.TimingWordsAreLoadedInOrder : Prop :=
  ∀ s : State,
    (s.seq.inq = [] → exec .pullStart s = .next s ∧ exec .pullThresh s = .next s) ∧
    (∀ v rest, s.seq.inq = v :: rest →
      exec .pullStart s = .next { s with seq := { s.seq with x := v, inq := rest, phase := 1 } }) ∧
    (∀ v rest, s.seq.inq = v :: rest → s.seq.x = 0 →
      exec .pullThresh s = .next { s with seq := { s.seq with y := v, inq := rest, phase := 3 } }) ∧
    (∀ v rest, s.seq.inq = v :: rest → s.seq.x ≠ 0 →
      exec .pullThresh s = .next { s with seq := { s.seq with y := v, inq := rest, pinDir := true, phase := 2 } })

/-- 40 R114: DRIVE_LOW, the test after the decrement. -/
def Obligations.DriveLowCountsAndReleases : Prop :=
  ∀ s : State,
    (s.seq.x = 1 →
      exec .driveLow s = .next { s with seq := { s.seq with x := 0, pinDir := false, phase := 3 } }) ∧
    (s.seq.x ≠ 1 → exec .driveLow s = .next { s with seq := { s.seq with x := s.seq.x - 1 } })

/-- 40 R114: from phase 2 with X = n at least 1, the pin stays driven for the first n - 1 ticks and is released at the
end of the n-th, whatever the draws. -/
def Obligations.StartPulseLastsXTicks : Prop :=
  ∀ (s : State) (ticks rest : List Event), s.env.agenda = ticks ++ rest →
    (∀ e ∈ ticks, e.action = .seqTick) → s.seq.seqEn = true → s.seq.phase = 2 → s.seq.pinDir = true →
    1 ≤ s.seq.x.toNat →
    (ticks.length < s.seq.x.toNat → ∃ t, Sys2Proof.core.run ticks.length s = .next t ∧
      t.seq.pinDir = true ∧ t.seq.phase = 2 ∧ t.seq.x.toNat = s.seq.x.toNat - ticks.length) ∧
    (ticks.length = s.seq.x.toNat → ∃ t, Sys2Proof.core.run ticks.length s = .next t ∧
      t.seq.pinDir = false ∧ t.seq.phase = 3 ∧ t.seq.x = 0)

/-- 40 R111 and R115 to R119: the sample is 0 while the pin is driven and the draw otherwise; each wait phase goes on at
its own level of the line and otherwise changes nothing; the rising edge of a bit starts its width at 1. -/
def Obligations.WaitPhasesFollowTheLine : Prop :=
  ∀ (s : State) (line : Bool), line = (if s.seq.pinDir = true then false else s.env.draws.line) →
    (line = true → exec .waitRelease s = .next { s with seq := { s.seq with phase := 4 } }) ∧
    (line = false → exec .waitRelease s = .next s) ∧
    (line = false → exec .waitAckLow s = .next { s with seq := { s.seq with phase := 5 } }) ∧
    (line = true → exec .waitAckLow s = .next s) ∧
    (line = true → exec .waitAckHigh s = .next { s with seq := { s.seq with phase := 6 } }) ∧
    (line = false → exec .waitAckHigh s = .next s) ∧
    (line = false → exec .waitAckEnd s = .next { s with seq := { s.seq with phase := 7 } }) ∧
    (line = true → exec .waitAckEnd s = .next s) ∧
    (line = true → exec .waitBitHigh s = .next { s with seq := { s.seq with w := 1, phase := 8 } }) ∧
    (line = false → exec .waitBitHigh s = .next s)

/-- 40 R120: MEASURE_HIGH, counting, and on the fall classifying (R124), packing (R125) and pushing or stalling
(R126). -/
def Obligations.MeasureHighClassifiesAndPacks : Prop :=
  ∀ (s : State) (line : Bool), line = (if s.seq.pinDir = true then false else s.env.draws.line) →
    (line = true → exec .measureHigh s = .next { s with seq := { s.seq with
      w := BitVec.ofNat 32 (min (s.seq.w.toNat + 1) 0xFFFFFFFF) } }) ∧
    (line = false → ∃ (b : Nat) (isr : Byte),
      b = (if s.seq.w.toNat > s.seq.y.toNat then 1 else 0) ∧ isr.toNat = (2 * s.seq.isr.toNat + b) % 256 ∧
      (s.seq.bitCnt + 1 < 8 → exec .measureHigh s = .next { s with seq := { s.seq with
        nBits := s.seq.nBits + 1, isr := isr, bitCnt := s.seq.bitCnt + 1, phase := 7 } }) ∧
      (8 ≤ s.seq.bitCnt + 1 → s.seq.outq.length < 4 → exec .measureHigh s = .next { s with seq := { s.seq with
        nBits := s.seq.nBits + 1, outq := s.seq.outq ++ [isr], isr := 0, bitCnt := 0
        phase := if s.seq.nBits + 1 = 40 then 10 else 7 } }) ∧
      (8 ≤ s.seq.bitCnt + 1 → 4 ≤ s.seq.outq.length → exec .measureHigh s = .next { s with seq := { s.seq with
        nBits := s.seq.nBits + 1, isr := isr, bitCnt := 8, phase := 9 } }))

/-- 40 R121: PUSH_STALL. -/
def Obligations.PushStallRetriesThePush : Prop :=
  ∀ s : State,
    (4 ≤ s.seq.outq.length → exec .pushStall s = .next s) ∧
    (s.seq.outq.length < 4 → exec .pushStall s = .next { s with seq := { s.seq with
      outq := s.seq.outq ++ [s.seq.isr], isr := 0, bitCnt := 0
      phase := if s.seq.nBits = 40 then 10 else 7 } })

/-- 40 R110, the frame of every phase: a tick writes the sequencer group alone, never SEQ_EN or PULL, and no register
of the controller, the channel, BUF or the allocator; it cannot fault. -/
def Obligations.PhasesWriteTheSequencerAlone : Prop :=
  ∀ (s : State) (i : Instr) (p : BitVec 4), encode i = .phase p → ∃ t, exec i s = .next t ∧
    t.ctl = s.ctl ∧ t.ch = s.ch ∧ t.buf = s.buf ∧ t.alloc = s.alloc ∧ t.params = s.params ∧ t.env = s.env ∧
    t.seq.seqEn = s.seq.seqEn ∧ t.seq.pull = s.seq.pull

/-- 40 R125: eight bits shifted into an ISR that starts at 0 make the byte whose bit 7 is the first. -/
def Obligations.EightBitsPackMostSignificantFirst : Prop :=
  ∀ b0 b1 b2 b3 b4 b5 b6 b7 : Bool, (packByte [b0, b1, b2, b3, b4, b5, b6, b7]).toNat =
    b0.toNat * 128 + b1.toNat * 64 + b2.toNat * 32 + b3.toNat * 16 + b4.toNat * 8 + b5.toNat * 4 + b6.toNat * 2 +
      b7.toNat

/-! ## The channel -/

/-- 41 R143: a transfer moves the oldest byte of OUTQ to BUF[CH_DST], advances, and completes on the last; every other
byte of BUF reads as before. It does not read SEQ_EN (R147). -/
def Obligations.TransferMovesOneByte : Prop :=
  ∀ (s : State) (v : Byte) (rest : List Byte), (nextEvent s).action = .chStep → StateInv s → s.ch.busy = true →
    s.seq.outq = v :: rest →
    ∃ t, step s = .next t ∧ t.ctl = s.ctl ∧ t.seq = { s.seq with outq := rest } ∧ t.alloc = s.alloc ∧
      t.params = s.params ∧ t.env = (prepare s).env ∧
      t.ch = { busy := decide (s.ch.count ≠ 1), count := s.ch.count - 1, dst := s.ch.dst + 1 } ∧
      bufGet t.buf s.ch.dst = v ∧ (∀ a, a ≠ s.ch.dst → bufGet t.buf a = bufGet s.buf a)

/-- 41 R144: the channel stops being busy by its own step only with CH_COUNT = 0 and CH_DST = 5, that is after the
fifth transfer. -/
def Obligations.CompletionIsTheFifthTransfer : Prop :=
  ∀ s t : State, StateInv s → (nextEvent s).action = .chStep → s.ch.busy = true → step s = .next t → t.ch.busy = false →
    s.ch.dst = 4 ∧ t.ch.count = 0 ∧ t.ch.dst = 5

/-- 41 R145: an abort clears CH_BUSY alone, and a second one changes nothing. -/
def Obligations.AbortIsIdempotent : Prop :=
  ∀ s : State, chAbort s = { s with ch := { s.ch with busy := false } } ∧ chAbort (chAbort s) = chAbort s

/-! ## The FINISH sub-phases -/

/-- 42 R176: WAIT ends when the channel is idle or the elapsed time reaches the budget, START_US + 6000 (R169, R170),
and otherwise changes nothing. -/
def Obligations.WaitEndsOnIdleOrBudget : Prop :=
  ∀ s : State, (nextEvent s).action = .ctlStep → s.ctl.fatal = false → s.ctl.state = .finishing →
    s.ctl.finSub = .wait → ∃ e budget : Nat,
      e = (BitVec.ofNat 32 (prepare s).env.clock - s.ctl.startTs).toNat ∧
      budget = (match s.ctl.config.model with | .m0 => 24000 | .m1 => 24000 | .m2 => 7000 | .m3 => 7000) ∧
      (s.ch.busy = false ∨ budget ≤ e →
        step s = .next { prepare s with ctl := { s.ctl with finSub := .disable } }) ∧
      (s.ch.busy = true → e < budget → step s = .next (prepare s))

/-- 42 R177: DISABLE stops the sequencer, releases the pin and keeps everything else (40 R128). -/
def Obligations.DisableFreezesTheSequencer : Prop :=
  ∀ s : State, (nextEvent s).action = .ctlStep → s.ctl.fatal = false → s.ctl.state = .finishing →
    s.ctl.finSub = .disable →
    step s = .next { prepare s with
      ctl := { s.ctl with finSub := .check }
      seq := { s.seq with seqEn := false, pinDir := false } }

/-- 42 R178: CHECK aborts a busy channel and reports TIMEOUT, and otherwise decodes the five bytes of BUF; then
IDLE. -/
def Obligations.CheckDecidesTheOutcome : Prop :=
  ∀ s : State, (nextEvent s).action = .ctlStep → s.ctl.fatal = false → s.ctl.state = .finishing →
    s.ctl.finSub = .check →
    (s.ch.busy = true → step s = .next { prepare s with
      ctl := { s.ctl with
        state := .idle, finSub := .wait
        reading := { result := .timeout, hum := 0, temp := 0, tneg := false, tclamp := false } }
      ch := { s.ch with busy := false } }) ∧
    (s.ch.busy = false → step s = .next { prepare s with
      ctl := { s.ctl with
        state := .idle, finSub := .wait
        reading := frameDecode s.ctl.config.model
          { hh := bufGet s.buf 0, hl := bufGet s.buf 1, th := bufGet s.buf 2, tl := bufGet s.buf 3
            ck := bufGet s.buf 4 } } })

/-- 42 R181: when the first of three controller steps finds the channel idle or the budget reached, the three end in
IDLE with the sequencer off, the pin released and an outcome. -/
def Obligations.FinishEndsInThreeSteps : Prop :=
  ∀ (s : State) (e1 e2 e3 : Event) (rest : List Event), s.env.agenda = e1 :: e2 :: e3 :: rest →
    e1.action = .ctlStep → e2.action = .ctlStep → e3.action = .ctlStep → s.ctl.fatal = false →
    s.ctl.state = .finishing → s.ctl.finSub = .wait →
    (s.ch.busy = false ∨ budgetUs s.ctl.config.model ≤
      (BitVec.ofNat 32 (s.env.clock + e1.draws.elapse) - s.ctl.startTs).toNat) →
    ∃ t, Sys2Proof.core.run 3 s = .next t ∧ t.ctl.state = .idle ∧ t.ctl.finSub = .wait ∧ t.ctl.fatal = false ∧
      t.seq = { s.seq with seqEn := false, pinDir := false } ∧ t.ch.busy = false ∧ t.buf = s.buf ∧
      (s.ch.busy = true → t.ctl.reading.result = .timeout) ∧
      (s.ch.busy = false → t.ctl.reading = frameDecode s.ctl.config.model (bufFrame s))

/-! ## The frame decoder -/

/-- 43 R200 to R210: the decoder's result for every model and frame, as exact numbers: no narrowing loses a value. -/
def Obligations.FrameDecodesToExactTenths : Prop :=
  ∀ (m : Model) (r : Frame),
    ((r.hh.toNat + r.hl.toNat + r.th.toNat + r.tl.toNat) % 256 ≠ r.ck.toNat →
      frameDecode m r = { result := .badChecksum, hum := 0, temp := 0, tneg := false, tclamp := false }) ∧
    ((r.hh.toNat + r.hl.toNat + r.th.toNat + r.tl.toNat) % 256 = r.ck.toNat →
      (frameDecode m r).result = .ok ∧
      (frameDecode m r).hum.toNat = (match m with
        | .m0 => 10 * r.hh.toNat + r.hl.toNat
        | .m1 => 10 * r.hh.toNat + r.hl.toNat
        | .m2 => 256 * r.hh.toNat + r.hl.toNat
        | .m3 => 256 * r.hh.toNat + r.hl.toNat) ∧
      (frameDecode m r).temp.toInt = (match m with
        | .m0 => if 128 ≤ r.th.toNat then (0 : Int) else ((10 * r.th.toNat + r.tl.toNat % 128 : Nat) : Int)
        | .m1 => if 128 ≤ r.th.toNat then -((10 * r.th.toNat + r.tl.toNat % 128 : Nat) : Int)
                 else ((10 * r.th.toNat + r.tl.toNat % 128 : Nat) : Int)
        | .m2 => if 128 ≤ r.th.toNat then -((256 * (r.th.toNat % 128) + r.tl.toNat : Nat) : Int)
                 else ((256 * (r.th.toNat % 128) + r.tl.toNat : Nat) : Int)
        | .m3 => if 128 ≤ r.th.toNat then -((256 * (r.th.toNat % 128) + r.tl.toNat : Nat) : Int)
                 else ((256 * (r.th.toNat % 128) + r.tl.toNat : Nat) : Int)) ∧
      (frameDecode m r).tneg = (decide (m ≠ .m0) && decide (128 ≤ r.th.toNat)) ∧
      (frameDecode m r).tclamp = (decide (m = .m0) && decide (128 ≤ r.th.toNat)))

/-- 43 R214: a change of exactly one byte of a frame that passes the check makes it fail. -/
def Obligations.SingleByteChangesAreDetected : Prop :=
  ∀ (r : Frame) (v : Byte), checksumOk r = true →
    (v ≠ r.hh → checksumOk { r with hh := v } = false) ∧
    (v ≠ r.hl → checksumOk { r with hl := v } = false) ∧
    (v ≠ r.th → checksumOk { r with th := v } = false) ∧
    (v ≠ r.tl → checksumOk { r with tl := v } = false) ∧
    (v ≠ r.ck → checksumOk { r with ck := v } = false)

/-- 43 R212, R215: for each model and each pair of values in its ranges of R212, some frame decodes to exactly that
reading. Temperatures of models 0 and 1 run to 1397 (byte2 = 127, byte3 up to 127), past the 1279 that R215's inverse
gives. For the split humidity the byte pair is left open: the pair (h div 10, h mod 10) of R215 is a pair of bytes only
up to 2559. -/
def Obligations.EveryReadingHasAFrame : Prop :=
  ∀ (m : Model) (h : Nat) (t : Int),
    (match m with
      | .m0 => h ≤ 2805 ∧ 0 ≤ t ∧ t ≤ 1397
      | .m1 => h ≤ 2805 ∧ (0 ≤ t ∧ t ≤ 1397 ∨ -2677 ≤ t ∧ t ≤ -1280)
      | .m2 => h ≤ 65535 ∧ -32767 ≤ t ∧ t ≤ 32767
      | .m3 => h ≤ 65535 ∧ -32767 ≤ t ∧ t ≤ 32767) →
    ∃ r : Frame, r.ck = sum8 r ∧ (frameDecode m r).result = .ok ∧ (frameDecode m r).hum.toNat = h ∧
      (frameDecode m r).temp.toInt = t

/-! ## The register window -/

/-- 30 R91, with the code tables of 30 R102 and 60 R231: STATUS as the sum of its fields, every bit above 14 reading
0. -/
def Obligations.StatusShowsTheState : Prop :=
  ∀ s : State, (readReg s 0x04).toNat =
    (match s.ctl.state with | .uninit => 0 | .idle => 1 | .armed => 2 | .finishing => 3) +
      4 * (match s.ctl.finSub with | .wait => 0 | .disable => 1 | .check => 2) + 16 * s.seq.seqEn.toNat +
      32 * s.ch.busy.toNat + 64 * s.ctl.fatal.toNat + 128 * s.seq.pinDir.toNat +
      256 * (match s.ctl.faultCause with
        | .none => 0
        | .illegalCommand => 1
        | .alreadyInitialised => 2
        | .badBlock => 3
        | .badPin => 4
        | .noFreeUnit => 5
        | .noFreeChannel => 6
        | .noProgramSpace => 7
        | .notInitialised => 8
        | .startNotIdle => 9
        | .finishNotArmed => 10
        | .busyReentry => 11
        | .unrecognisedModel => 12) +
      4096 * (match s.ctl.reading.result with | .none => 0 | .ok => 1 | .timeout => 2 | .badChecksum => 3) +
      16384 * s.seq.pull.toNat

/-- 30 R92 to R98: the other architectural registers as the sums of their fields, and CMD reads 0. -/
def Obligations.RegistersShowTheirFields : Prop :=
  ∀ s : State,
    readReg s 0x00 = 0 ∧
    (readReg s 0x08).toNat = (match s.ctl.config.model with | .m0 => 0 | .m1 => 1 | .m2 => 2 | .m3 => 3) + 4 * s.ctl.config.pullUp.toNat +
      256 * s.ctl.config.pin.toNat + 8192 * s.ctl.config.block.toNat + 65536 * s.ctl.config.unitId.toNat +
      16777216 * s.ctl.config.chanId.toNat + 2147483648 * s.ctl.config.progLoaded.toNat ∧
    readReg s 0x0C = s.ctl.startTs ∧
    (readReg s 0x10).toNat = (bufGet s.buf 0).toNat + 256 * (bufGet s.buf 1).toNat +
      65536 * (bufGet s.buf 2).toNat + 16777216 * (bufGet s.buf 3).toNat ∧
    (readReg s 0x14).toNat = (bufGet s.buf 4).toNat ∧
    (readReg s 0x18).toNat = s.ctl.reading.hum.toNat ∧
    (readReg s 0x1C).toNat = s.ctl.reading.temp.toNat + 65536 * s.ctl.reading.tneg.toNat +
      131072 * s.ctl.reading.tclamp.toNat ∧
    (readReg s 0x20).toNat = s.ctl.decIn.hh.toNat + 256 * s.ctl.decIn.hl.toNat + 65536 * s.ctl.decIn.th.toNat +
      16777216 * s.ctl.decIn.tl.toNat ∧
    (readReg s 0x24).toNat = s.ctl.decIn.ck.toNat ∧
    readReg s 0x28 = s.ctl.faultInfo

/-- 30 R99 to R101: the debug registers, which read 0 in UNINIT, and ID; in states of the invariant, where every count
fits its field. -/
def Obligations.DebugRegistersShowThePipeline : Prop :=
  ∀ s : State, StateInv s → readReg s 0x40 = 0x44485401 ∧
    (s.ctl.state = .uninit → readReg s 0x2C = 0 ∧ readReg s 0x30 = 0 ∧ readReg s 0x34 = 0 ∧ readReg s 0x38 = 0 ∧
      readReg s 0x3C = 0) ∧
    (s.ctl.state ≠ .uninit →
      (readReg s 0x2C).toNat = s.seq.phase.toNat + 16 * s.seq.bitCnt + 256 * s.seq.nBits +
        65536 * s.seq.inq.length + 1048576 * s.seq.outq.length + 8388608 * s.seq.seqEn.toNat +
        16777216 * s.seq.isr.toNat ∧
      (readReg s 0x30).toNat = s.ch.count + 16 * s.ch.dst + 256 * s.ch.busy.toNat ∧
      readReg s 0x34 = s.seq.x ∧ readReg s 0x38 = s.seq.y ∧ readReg s 0x3C = s.seq.w)

/-- 20 R68: a host read returns the register and changes nothing of the machine; only the word handed to the host is
kept (log 10). -/
def Obligations.HostReadsHaveNoSideEffect : Prop :=
  ∀ (s : State) (offset : Nat), offset % 4 = 0 → (nextEvent s).action = .hostRead 32 offset →
    step s = .next { prepare s with env := { (prepare s).env with hostData := readReg s offset } }

/-- 30 R97 and R103: a write of DEC_IN0 or DEC_IN1 is what the register then reads, within its implemented bits, and a
write anywhere else but CMD has no effect. -/
def Obligations.WritesReachOnlyTheirRegister : Prop :=
  ∀ (s : State) (offset : Nat) (v : Word), offset % 4 = 0 → (nextEvent s).action = .hostWrite 32 offset v →
    (offset = 0x20 → ∃ t, step s = .next t ∧ readReg t 0x20 = v ∧
      t = { prepare s with ctl := { s.ctl with decIn := t.ctl.decIn } } ∧ t.ctl.decIn.ck = s.ctl.decIn.ck) ∧
    (offset = 0x24 → ∃ t, step s = .next t ∧ (readReg t 0x24).toNat = v.toNat % 256 ∧
      readReg t 0x20 = readReg s 0x20 ∧ t = { prepare s with ctl := { s.ctl with decIn := t.ctl.decIn } }) ∧
    (offset ≠ 0x00 → offset ≠ 0x20 → offset ≠ 0x24 → step s = .next (prepare s))

/-- 20 R70: a host access that is not a 32-bit access at a multiple of 4 is refused, read or write. -/
def Obligations.OtherAccessesAreRefused : Prop :=
  ∀ (s : State) (width offset : Nat) (v : Word), width ≠ 32 ∨ offset % 4 ≠ 0 →
    (nextEvent s).action = .hostWrite width offset v ∨ (nextEvent s).action = .hostRead width offset →
    ∃ r, step s = .refused r

/-! ## Reset -/

/-- 70 R260, R261: a reset of the block puts every element of the instance at its value of 10 R46, whatever the state
before, and leaves the allocator's claims. -/
def Obligations.BlockResetClearsTheInstance : Prop :=
  ∀ s : State, (nextEvent s).action = .blockReset → ∃ t, step s = .next t ∧
    t.ctl = { state := .uninit, finSub := .wait, fatal := false, faultCause := .none, faultInfo := 0
              reading := { result := .none, hum := 0, temp := 0, tneg := false, tclamp := false }
              config := { model := .m0, pullUp := false, pin := 0, block := 0, unitId := 0, chanId := 0
                          progLoaded := false }
              startTs := 0, div := 0, decIn := { hh := 0, hl := 0, th := 0, tl := 0, ck := 0 } } ∧
    t.seq = { seqEn := false, phase := 0, x := 0, y := 0, w := 0, isr := 0, bitCnt := 0, nBits := 0, inq := []
              outq := [], pinDir := false, pull := false } ∧
    t.ch = { busy := false, count := 0, dst := 0 } ∧ (∀ a, bufGet t.buf a = 0) ∧ t.alloc = s.alloc ∧
    t.ctl = State.reset.ctl ∧ t.seq = State.reset.seq ∧ t.ch = State.reset.ch ∧ t.buf = State.reset.buf

/-- 70 R261: after reset every register of the window reads 0 but ID. -/
def Obligations.ResetRegistersReadZero : Prop :=
  ∀ offset : Nat, readReg State.reset offset = if offset = 0x40 then 0x44485401 else 0

/-! ## Invariants -/

/-- The invariant holds after reset. -/
def Obligations.ResetMeetsTheInvariant : Prop :=
  StateInv State.reset

/-- 10 R44 and the rules around it: every step of every agent, in every state that meets the invariant, gives a state
that meets it. -/
def Obligations.EveryStepKeepsTheInvariant : Prop :=
  ∀ s t : State, StateInv s → step s = .next t → StateInv t

/-- 20 R61, 41 R143, 40 R110: in states of the invariant no step faults, and a step is refused only for a host access
that is not an aligned 32-bit one. -/
def Obligations.InvariantStatesNeverFault : Prop :=
  ∀ s : State, StateInv s →
    (∀ f, step s ≠ .fault f) ∧
    (∀ r, step s = .refused r → ∃ width offset v, (width ≠ 32 ∨ offset % 4 ≠ 0) ∧
      ((nextEvent s).action = .hostWrite width offset v ∨ (nextEvent s).action = .hostRead width offset))

/-- 40 R130 as an invariant: whatever the interleaving of ticks, transfers, commands and resets, the bytes moved, the
bytes queued and the byte being packed are the bits classified since the restart, in order. A step appends a bit only
on a falling edge in MEASURE_HIGH, and that bit is `W > Y`; and only a reset, an INIT or a START drops the bits. -/
def Obligations.WireBitsReachTheBufferInOrder : Prop :=
  ∀ (s t : State) (bits : List Bool), StateInv s → Captured s bits → step s = .next t →
    ∃ bits', Captured t bits' ∧
      (bits' = bits ∨
       bits' = bits ++ [decide (s.seq.y.toNat < s.seq.w.toNat)] ∧ (nextEvent s).action = .seqTick ∧
         s.seq.seqEn = true ∧ s.seq.phase = 8 ∧ lineSample (prepare s) = false ∨
       bits' = [] ∧ t.seq.phase = 0 ∧ t.ch.dst = 0 ∧ t.seq.outq = [] ∧
         ((nextEvent s).action = .blockReset ∨ (nextEvent s).action = .platformReset ∨
          ∃ w, (nextEvent s).action = .hostWrite 32 0x00 w ∧
            (decode (.command w) = .ok .start ∨ ∃ m u p b, decode (.command w) = .ok (.init m u p b))))

/-- 40 R130: once the channel has moved five bytes, wire bit k is bit 7 - (k mod 8) of BUF[k div 8]. -/
def Obligations.WireBitPlaceInTheBuffer : Prop :=
  ∀ (s : State) (bits : List Bool), StateInv s → Captured s bits → s.ch.dst = 5 →
    ∀ k, k < 40 → bits[k]? = some ((bufGet s.buf (k / 8)).getLsbD (7 - k % 8))

/-! ## Rules of the whole machine -/

/-- 42 R168: the pin becomes driven only by the sequencer's own tick in phase 1; no controller step, host access,
channel step, peer or reset drives it. -/
def Obligations.OnlyTheSequencerDrivesThePin : Prop :=
  ∀ s t : State, step s = .next t → s.seq.pinDir = false → t.seq.pinDir = true →
    (nextEvent s).action = .seqTick ∧ s.seq.seqEn = true ∧ s.seq.phase = 1

/-- 40 R132: while the sequencer runs, nothing but its ticks and a reset changes a sequencer register, except that
DISABLE (a controller step in that sub-phase) and DEINIT (a write of its word to CMD) stop it; the channel only takes
bytes from OUTQ. -/
def Obligations.NothingDisturbsARunningSequencer : Prop :=
  ∀ s t : State, StateInv s → s.seq.seqEn = true → step s = .next t → (nextEvent s).action ≠ .seqTick →
    (nextEvent s).action ≠ .blockReset → (nextEvent s).action ≠ .platformReset →
    t.seq = s.seq ∨
    (t.seq = { s.seq with seqEn := false, pinDir := false } ∧
      ((nextEvent s).action = .ctlStep ∧ s.ctl.fatal = false ∧ s.ctl.state = .finishing ∧ s.ctl.finSub = .disable ∨
       (nextEvent s).action = .hostWrite 32 0x00 0x00000002 ∧ s.ctl.fatal = false ∧ s.ctl.state = .armed)) ∨
    ((nextEvent s).action = .chStep ∧ t.seq = { s.seq with outq := s.seq.outq.tail })

/-- 20 R71 (d): in IDLE and UNINIT no step writes BUF but an INIT, a START or a reset. -/
def Obligations.IdleBufferIsStable : Prop :=
  ∀ s t : State, StateInv s → s.ctl.state = .idle ∨ s.ctl.state = .uninit → step s = .next t →
    (nextEvent s).action ≠ .blockReset → (nextEvent s).action ≠ .platformReset →
    (∀ w, (nextEvent s).action = .hostWrite 32 0x00 w →
      decode (.command w) ≠ .ok .start ∧ ∀ m u p b, decode (.command w) ≠ .ok (.init m u p b)) →
    ∀ a, bufGet t.buf a = bufGet s.buf a

/-- 42 R167, the state machine of the whole block: every change of STATE, over all agents and commands. -/
def Obligations.StateChangesFollowTheTable : Prop :=
  ∀ s t : State, step s = .next t → t.ctl.state ≠ s.ctl.state →
    (nextEvent s).action = .blockReset ∨ (nextEvent s).action = .platformReset ∨
    (s.ctl.fatal = false ∧ t.ctl.fatal = false ∧
      ((s.ctl.state = .finishing ∧ t.ctl.state = .idle ∧ (nextEvent s).action = .ctlStep ∧ s.ctl.finSub = .check) ∨
       (∃ w i, (nextEvent s).action = .hostWrite 32 0x00 w ∧ decode (.command w) = .ok i ∧
         ((s.ctl.state = .uninit ∧ t.ctl.state = .idle ∧ ∃ m u p b, i = .init m u p b) ∨
          (s.ctl.state = .idle ∧ t.ctl.state = .armed ∧ i = .start) ∨
          (s.ctl.state = .armed ∧ t.ctl.state = .finishing ∧ i = .finish) ∨
          ((s.ctl.state = .idle ∨ s.ctl.state = .armed) ∧ t.ctl.state = .uninit ∧ i = .deinit)))))

/-- The platform's parameters never change (00 R9), and the clock never goes back (60 R244). -/
def Obligations.ParametersAndClockAreLawful : Prop :=
  ∀ s t : State, step s = .next t → t.params = s.params ∧
    t.env.clock = s.env.clock + (nextEvent s).draws.elapse

/-- 60 R246, R247, R250: whatever the agents do, a unit or channel enters the claimed set only if it was free, and what
another instance holds is not taken from it but by its own release or the platform's reset. -/
def Obligations.ClaimsAreExclusive : Prop :=
  ∀ s t : State, StateInv s → step s = .next t →
    (∀ p, p ∈ s.env.peerUnits → p ∈ t.env.peerUnits ∧ p ∈ t.alloc.units ∨
      (nextEvent s).action = .peerReleaseUnit p.1 p.2 ∨ (nextEvent s).action = .platformReset) ∧
    (∀ c, c ∈ s.env.peerChans → c ∈ t.env.peerChans ∧ c ∈ t.alloc.chans ∨
      (nextEvent s).action = .peerReleaseChannel c ∨ (nextEvent s).action = .platformReset) ∧
    (t.ctl.state ≠ .uninit → s.ctl.state = .uninit →
      (t.ctl.config.block.toNat, t.ctl.config.unitId.toNat) ∉ s.alloc.units ∧
      t.ctl.config.chanId.toNat ∉ s.alloc.chans)
end

