-- ==== Sys2Proof/Laws/State.lean ====
section
/-! SUPPORT. The simp lemmas of the state's updates: one per field and update, each true by unfolding once, so that no
later proof unfolds a record update. -/

namespace Sys2Proof.Machine

/-! ### `bufZero` -/

@[simp] theorem bufZero_ctl (s : State) : (bufZero s).ctl = s.ctl := rfl
@[simp] theorem bufZero_seq (s : State) : (bufZero s).seq = s.seq := rfl
@[simp] theorem bufZero_ch (s : State) : (bufZero s).ch = s.ch := rfl
@[simp] theorem bufZero_buf (s : State) : (bufZero s).buf = [] := rfl
@[simp] theorem bufZero_alloc (s : State) : (bufZero s).alloc = s.alloc := rfl
@[simp] theorem bufZero_params (s : State) : (bufZero s).params = s.params := rfl
@[simp] theorem bufZero_env (s : State) : (bufZero s).env = s.env := rfl

/-! ### `fatalEntry` -/

@[simp] theorem fatalEntry_ctl (cause : FaultCause) (w : Word) (s : State) : (fatalEntry cause w s).ctl = { s.ctl with fatal := true, faultCause := cause, faultInfo := w } := rfl
@[simp] theorem fatalEntry_seq (cause : FaultCause) (w : Word) (s : State) : (fatalEntry cause w s).seq = s.seq := rfl
@[simp] theorem fatalEntry_ch (cause : FaultCause) (w : Word) (s : State) : (fatalEntry cause w s).ch = s.ch := rfl
@[simp] theorem fatalEntry_buf (cause : FaultCause) (w : Word) (s : State) : (fatalEntry cause w s).buf = s.buf := rfl
@[simp] theorem fatalEntry_alloc (cause : FaultCause) (w : Word) (s : State) : (fatalEntry cause w s).alloc = s.alloc := rfl
@[simp] theorem fatalEntry_params (cause : FaultCause) (w : Word) (s : State) : (fatalEntry cause w s).params = s.params := rfl
@[simp] theorem fatalEntry_env (cause : FaultCause) (w : Word) (s : State) : (fatalEntry cause w s).env = s.env := rfl

/-! ### `onSeq` -/

@[simp] theorem onSeq_ctl (f : Seq → Seq) (s : State) : (onSeq f s).ctl = s.ctl := rfl
@[simp] theorem onSeq_seq (f : Seq → Seq) (s : State) : (onSeq f s).seq = f s.seq := rfl
@[simp] theorem onSeq_ch (f : Seq → Seq) (s : State) : (onSeq f s).ch = s.ch := rfl
@[simp] theorem onSeq_buf (f : Seq → Seq) (s : State) : (onSeq f s).buf = s.buf := rfl
@[simp] theorem onSeq_alloc (f : Seq → Seq) (s : State) : (onSeq f s).alloc = s.alloc := rfl
@[simp] theorem onSeq_params (f : Seq → Seq) (s : State) : (onSeq f s).params = s.params := rfl
@[simp] theorem onSeq_env (f : Seq → Seq) (s : State) : (onSeq f s).env = s.env := rfl

/-! ### `chConfigure` -/

@[simp] theorem chConfigure_ctl (s : State) : (chConfigure s).ctl = s.ctl := rfl
@[simp] theorem chConfigure_seq (s : State) : (chConfigure s).seq = s.seq := rfl
@[simp] theorem chConfigure_ch (s : State) : (chConfigure s).ch = { busy := true, count := 5, dst := 0 } := rfl
@[simp] theorem chConfigure_buf (s : State) : (chConfigure s).buf = s.buf := rfl
@[simp] theorem chConfigure_alloc (s : State) : (chConfigure s).alloc = s.alloc := rfl
@[simp] theorem chConfigure_params (s : State) : (chConfigure s).params = s.params := rfl
@[simp] theorem chConfigure_env (s : State) : (chConfigure s).env = s.env := rfl

/-! ### `chAbort` -/

@[simp] theorem chAbort_ctl (s : State) : (chAbort s).ctl = s.ctl := rfl
@[simp] theorem chAbort_seq (s : State) : (chAbort s).seq = s.seq := rfl
@[simp] theorem chAbort_ch (s : State) : (chAbort s).ch = { s.ch with busy := false } := rfl
@[simp] theorem chAbort_buf (s : State) : (chAbort s).buf = s.buf := rfl
@[simp] theorem chAbort_alloc (s : State) : (chAbort s).alloc = s.alloc := rfl
@[simp] theorem chAbort_params (s : State) : (chAbort s).params = s.params := rfl
@[simp] theorem chAbort_env (s : State) : (chAbort s).env = s.env := rfl

/-! ### `holdUnit` -/

@[simp] theorem holdUnit_ctl (b u : Nat) (s : State) : (holdUnit b u s).ctl = s.ctl := rfl
@[simp] theorem holdUnit_seq (b u : Nat) (s : State) : (holdUnit b u s).seq = s.seq := rfl
@[simp] theorem holdUnit_ch (b u : Nat) (s : State) : (holdUnit b u s).ch = s.ch := rfl
@[simp] theorem holdUnit_buf (b u : Nat) (s : State) : (holdUnit b u s).buf = s.buf := rfl
@[simp] theorem holdUnit_alloc (b u : Nat) (s : State) : (holdUnit b u s).alloc = { s.alloc with units := (b, u) :: s.alloc.units } := rfl
@[simp] theorem holdUnit_params (b u : Nat) (s : State) : (holdUnit b u s).params = s.params := rfl
@[simp] theorem holdUnit_env (b u : Nat) (s : State) : (holdUnit b u s).env = s.env := rfl

/-! ### `holdChannel` -/

@[simp] theorem holdChannel_ctl (c : Nat) (s : State) : (holdChannel c s).ctl = s.ctl := rfl
@[simp] theorem holdChannel_seq (c : Nat) (s : State) : (holdChannel c s).seq = s.seq := rfl
@[simp] theorem holdChannel_ch (c : Nat) (s : State) : (holdChannel c s).ch = s.ch := rfl
@[simp] theorem holdChannel_buf (c : Nat) (s : State) : (holdChannel c s).buf = s.buf := rfl
@[simp] theorem holdChannel_alloc (c : Nat) (s : State) : (holdChannel c s).alloc = { s.alloc with chans := c :: s.alloc.chans } := rfl
@[simp] theorem holdChannel_params (c : Nat) (s : State) : (holdChannel c s).params = s.params := rfl
@[simp] theorem holdChannel_env (c : Nat) (s : State) : (holdChannel c s).env = s.env := rfl

/-! ### `holdProgram` -/

@[simp] theorem holdProgram_ctl (b : Nat) (s : State) : (holdProgram b s).ctl = s.ctl := rfl
@[simp] theorem holdProgram_seq (b : Nat) (s : State) : (holdProgram b s).seq = s.seq := rfl
@[simp] theorem holdProgram_ch (b : Nat) (s : State) : (holdProgram b s).ch = s.ch := rfl
@[simp] theorem holdProgram_buf (b : Nat) (s : State) : (holdProgram b s).buf = s.buf := rfl
@[simp] theorem holdProgram_alloc (b : Nat) (s : State) : (holdProgram b s).alloc = { s.alloc with progs := b :: s.alloc.progs } := rfl
@[simp] theorem holdProgram_params (b : Nat) (s : State) : (holdProgram b s).params = s.params := rfl
@[simp] theorem holdProgram_env (b : Nat) (s : State) : (holdProgram b s).env = s.env := rfl

/-! ### `releaseChannel` -/

@[simp] theorem releaseChannel_ctl (c : Nat) (s : State) : (releaseChannel c s).ctl = s.ctl := rfl
@[simp] theorem releaseChannel_seq (c : Nat) (s : State) : (releaseChannel c s).seq = s.seq := rfl
@[simp] theorem releaseChannel_ch (c : Nat) (s : State) : (releaseChannel c s).ch = s.ch := rfl
@[simp] theorem releaseChannel_buf (c : Nat) (s : State) : (releaseChannel c s).buf = s.buf := rfl
@[simp] theorem releaseChannel_alloc (c : Nat) (s : State) : (releaseChannel c s).alloc = { s.alloc with chans := s.alloc.chans.filter (fun x => decide (x ≠ c)) } := rfl
@[simp] theorem releaseChannel_params (c : Nat) (s : State) : (releaseChannel c s).params = s.params := rfl
@[simp] theorem releaseChannel_env (c : Nat) (s : State) : (releaseChannel c s).env = s.env := rfl

/-! ### `releaseUnit` -/

@[simp] theorem releaseUnit_ctl (b u : Nat) (s : State) : (releaseUnit b u s).ctl = s.ctl := rfl
@[simp] theorem releaseUnit_seq (b u : Nat) (s : State) : (releaseUnit b u s).seq = s.seq := rfl
@[simp] theorem releaseUnit_ch (b u : Nat) (s : State) : (releaseUnit b u s).ch = s.ch := rfl
@[simp] theorem releaseUnit_buf (b u : Nat) (s : State) : (releaseUnit b u s).buf = s.buf := rfl
@[simp] theorem releaseUnit_alloc (b u : Nat) (s : State) : (releaseUnit b u s).alloc = { s.alloc with units := s.alloc.units.filter (fun x => decide (x ≠ (b, u))) } := rfl
@[simp] theorem releaseUnit_params (b u : Nat) (s : State) : (releaseUnit b u s).params = s.params := rfl
@[simp] theorem releaseUnit_env (b u : Nat) (s : State) : (releaseUnit b u s).env = s.env := rfl

/-! ### `unloadProgram` -/

@[simp] theorem unloadProgram_ctl (b : Nat) (s : State) : (unloadProgram b s).ctl = s.ctl := rfl
@[simp] theorem unloadProgram_seq (b : Nat) (s : State) : (unloadProgram b s).seq = s.seq := rfl
@[simp] theorem unloadProgram_ch (b : Nat) (s : State) : (unloadProgram b s).ch = s.ch := rfl
@[simp] theorem unloadProgram_buf (b : Nat) (s : State) : (unloadProgram b s).buf = s.buf := rfl
@[simp] theorem unloadProgram_alloc (b : Nat) (s : State) : (unloadProgram b s).alloc = { s.alloc with progs := s.alloc.progs.erase b } := rfl
@[simp] theorem unloadProgram_params (b : Nat) (s : State) : (unloadProgram b s).params = s.params := rfl
@[simp] theorem unloadProgram_env (b : Nat) (s : State) : (unloadProgram b s).env = s.env := rfl

/-! ### `setReading` -/

@[simp] theorem setReading_ctl (r : Reading) (s : State) : (setReading r s).ctl = { s.ctl with reading := r } := rfl
@[simp] theorem setReading_seq (r : Reading) (s : State) : (setReading r s).seq = s.seq := rfl
@[simp] theorem setReading_ch (r : Reading) (s : State) : (setReading r s).ch = s.ch := rfl
@[simp] theorem setReading_buf (r : Reading) (s : State) : (setReading r s).buf = s.buf := rfl
@[simp] theorem setReading_alloc (r : Reading) (s : State) : (setReading r s).alloc = s.alloc := rfl
@[simp] theorem setReading_params (r : Reading) (s : State) : (setReading r s).params = s.params := rfl
@[simp] theorem setReading_env (r : Reading) (s : State) : (setReading r s).env = s.env := rfl

/-! ### `clearReading` -/

@[simp] theorem clearReading_ctl (s : State) : (clearReading s).ctl = { s.ctl with reading := Reading.reset } := rfl
@[simp] theorem clearReading_seq (s : State) : (clearReading s).seq = s.seq := rfl
@[simp] theorem clearReading_ch (s : State) : (clearReading s).ch = s.ch := rfl
@[simp] theorem clearReading_buf (s : State) : (clearReading s).buf = s.buf := rfl
@[simp] theorem clearReading_alloc (s : State) : (clearReading s).alloc = s.alloc := rfl
@[simp] theorem clearReading_params (s : State) : (clearReading s).params = s.params := rfl
@[simp] theorem clearReading_env (s : State) : (clearReading s).env = s.env := rfl

/-! ### `timeoutReading` -/

@[simp] theorem timeoutReading_ctl (s : State) : (timeoutReading s).ctl = { s.ctl with reading := { Reading.reset with result := .timeout } } := rfl
@[simp] theorem timeoutReading_seq (s : State) : (timeoutReading s).seq = s.seq := rfl
@[simp] theorem timeoutReading_ch (s : State) : (timeoutReading s).ch = s.ch := rfl
@[simp] theorem timeoutReading_buf (s : State) : (timeoutReading s).buf = s.buf := rfl
@[simp] theorem timeoutReading_alloc (s : State) : (timeoutReading s).alloc = s.alloc := rfl
@[simp] theorem timeoutReading_params (s : State) : (timeoutReading s).params = s.params := rfl
@[simp] theorem timeoutReading_env (s : State) : (timeoutReading s).env = s.env := rfl

/-! ### `writeDecIn0` -/

@[simp] theorem writeDecIn0_ctl (v : Word) (s : State) : (writeDecIn0 v s).ctl = { s.ctl with decIn := { s.ctl.decIn with hh := lane 0 v, hl := lane 1 v, th := lane 2 v, tl := lane 3 v } } := rfl
@[simp] theorem writeDecIn0_seq (v : Word) (s : State) : (writeDecIn0 v s).seq = s.seq := rfl
@[simp] theorem writeDecIn0_ch (v : Word) (s : State) : (writeDecIn0 v s).ch = s.ch := rfl
@[simp] theorem writeDecIn0_buf (v : Word) (s : State) : (writeDecIn0 v s).buf = s.buf := rfl
@[simp] theorem writeDecIn0_alloc (v : Word) (s : State) : (writeDecIn0 v s).alloc = s.alloc := rfl
@[simp] theorem writeDecIn0_params (v : Word) (s : State) : (writeDecIn0 v s).params = s.params := rfl
@[simp] theorem writeDecIn0_env (v : Word) (s : State) : (writeDecIn0 v s).env = s.env := rfl

/-! ### `writeDecIn1` -/

@[simp] theorem writeDecIn1_ctl (v : Word) (s : State) : (writeDecIn1 v s).ctl = { s.ctl with decIn := { s.ctl.decIn with ck := lane 0 v } } := rfl
@[simp] theorem writeDecIn1_seq (v : Word) (s : State) : (writeDecIn1 v s).seq = s.seq := rfl
@[simp] theorem writeDecIn1_ch (v : Word) (s : State) : (writeDecIn1 v s).ch = s.ch := rfl
@[simp] theorem writeDecIn1_buf (v : Word) (s : State) : (writeDecIn1 v s).buf = s.buf := rfl
@[simp] theorem writeDecIn1_alloc (v : Word) (s : State) : (writeDecIn1 v s).alloc = s.alloc := rfl
@[simp] theorem writeDecIn1_params (v : Word) (s : State) : (writeDecIn1 v s).params = s.params := rfl
@[simp] theorem writeDecIn1_env (v : Word) (s : State) : (writeDecIn1 v s).env = s.env := rfl

/-! ### `blockReset` -/

@[simp] theorem blockReset_ctl (s : State) : (blockReset s).ctl = Ctl.reset := rfl
@[simp] theorem blockReset_seq (s : State) : (blockReset s).seq = Seq.reset := rfl
@[simp] theorem blockReset_ch (s : State) : (blockReset s).ch = Chan.reset := rfl
@[simp] theorem blockReset_buf (s : State) : (blockReset s).buf = [] := rfl
@[simp] theorem blockReset_alloc (s : State) : (blockReset s).alloc = s.alloc := rfl
@[simp] theorem blockReset_params (s : State) : (blockReset s).params = s.params := rfl
@[simp] theorem blockReset_env (s : State) : (blockReset s).env = s.env := rfl

/-! ### `platformReset` -/

@[simp] theorem platformReset_ctl (s : State) : (platformReset s).ctl = Ctl.reset := rfl
@[simp] theorem platformReset_seq (s : State) : (platformReset s).seq = Seq.reset := rfl
@[simp] theorem platformReset_ch (s : State) : (platformReset s).ch = Chan.reset := rfl
@[simp] theorem platformReset_buf (s : State) : (platformReset s).buf = [] := rfl
@[simp] theorem platformReset_alloc (s : State) : (platformReset s).alloc = Alloc.reset := rfl
@[simp] theorem platformReset_params (s : State) : (platformReset s).params = s.params := rfl
@[simp] theorem platformReset_env (s : State) : (platformReset s).env = { s.env with peerUnits := [], peerChans := [] } := rfl

/-! ### `latchDraws` -/

@[simp] theorem latchDraws_ctl (d : Draws) (s : State) : (latchDraws d s).ctl = s.ctl := rfl
@[simp] theorem latchDraws_seq (d : Draws) (s : State) : (latchDraws d s).seq = s.seq := rfl
@[simp] theorem latchDraws_ch (d : Draws) (s : State) : (latchDraws d s).ch = s.ch := rfl
@[simp] theorem latchDraws_buf (d : Draws) (s : State) : (latchDraws d s).buf = s.buf := rfl
@[simp] theorem latchDraws_alloc (d : Draws) (s : State) : (latchDraws d s).alloc = s.alloc := rfl
@[simp] theorem latchDraws_params (d : Draws) (s : State) : (latchDraws d s).params = s.params := rfl
@[simp] theorem latchDraws_env (d : Draws) (s : State) : (latchDraws d s).env = { s.env with draws := d, clock := s.env.clock + d.elapse } := rfl

/-! ### `place` -/

@[simp] theorem place_ctl (a : Action) (s : State) : (place a s).ctl = s.ctl := rfl
@[simp] theorem place_seq (a : Action) (s : State) : (place a s).seq = s.seq := rfl
@[simp] theorem place_ch (a : Action) (s : State) : (place a s).ch = s.ch := rfl
@[simp] theorem place_buf (a : Action) (s : State) : (place a s).buf = s.buf := rfl
@[simp] theorem place_alloc (a : Action) (s : State) : (place a s).alloc = s.alloc := rfl
@[simp] theorem place_params (a : Action) (s : State) : (place a s).params = s.params := rfl
@[simp] theorem place_env (a : Action) (s : State) : (place a s).env = { s.env with agenda := { action := a, draws := placedDraws s } :: s.env.agenda } := rfl

/-! ### `seqRestart` -/

@[simp] theorem seqRestart_seqEn (q : Seq) : (seqRestart q).seqEn = q.seqEn := rfl
@[simp] theorem seqRestart_phase (q : Seq) : (seqRestart q).phase = 0 := rfl
@[simp] theorem seqRestart_x (q : Seq) : (seqRestart q).x = 0 := rfl
@[simp] theorem seqRestart_y (q : Seq) : (seqRestart q).y = 0 := rfl
@[simp] theorem seqRestart_w (q : Seq) : (seqRestart q).w = 0 := rfl
@[simp] theorem seqRestart_isr (q : Seq) : (seqRestart q).isr = 0 := rfl
@[simp] theorem seqRestart_bitCnt (q : Seq) : (seqRestart q).bitCnt = 0 := rfl
@[simp] theorem seqRestart_nBits (q : Seq) : (seqRestart q).nBits = 0 := rfl
@[simp] theorem seqRestart_inq (q : Seq) : (seqRestart q).inq = [] := rfl
@[simp] theorem seqRestart_outq (q : Seq) : (seqRestart q).outq = [] := rfl
@[simp] theorem seqRestart_pinDir (q : Seq) : (seqRestart q).pinDir = false := rfl
@[simp] theorem seqRestart_pull (q : Seq) : (seqRestart q).pull = q.pull := rfl

/-! ### `seqDisable` -/

@[simp] theorem seqDisable_seqEn (q : Seq) : (seqDisable q).seqEn = false := rfl
@[simp] theorem seqDisable_phase (q : Seq) : (seqDisable q).phase = q.phase := rfl
@[simp] theorem seqDisable_x (q : Seq) : (seqDisable q).x = q.x := rfl
@[simp] theorem seqDisable_y (q : Seq) : (seqDisable q).y = q.y := rfl
@[simp] theorem seqDisable_w (q : Seq) : (seqDisable q).w = q.w := rfl
@[simp] theorem seqDisable_isr (q : Seq) : (seqDisable q).isr = q.isr := rfl
@[simp] theorem seqDisable_bitCnt (q : Seq) : (seqDisable q).bitCnt = q.bitCnt := rfl
@[simp] theorem seqDisable_nBits (q : Seq) : (seqDisable q).nBits = q.nBits := rfl
@[simp] theorem seqDisable_inq (q : Seq) : (seqDisable q).inq = q.inq := rfl
@[simp] theorem seqDisable_outq (q : Seq) : (seqDisable q).outq = q.outq := rfl
@[simp] theorem seqDisable_pinDir (q : Seq) : (seqDisable q).pinDir = false := rfl
@[simp] theorem seqDisable_pull (q : Seq) : (seqDisable q).pull = q.pull := rfl

/-! ### `takeEvent` and `prepare` -/

@[simp] theorem takeEvent_ctl (s : State) : (takeEvent s).ctl = s.ctl := by
  unfold takeEvent; split <;> rfl
@[simp] theorem takeEvent_seq (s : State) : (takeEvent s).seq = s.seq := by
  unfold takeEvent; split <;> rfl
@[simp] theorem takeEvent_ch (s : State) : (takeEvent s).ch = s.ch := by
  unfold takeEvent; split <;> rfl
@[simp] theorem takeEvent_buf (s : State) : (takeEvent s).buf = s.buf := by
  unfold takeEvent; split <;> rfl
@[simp] theorem takeEvent_alloc (s : State) : (takeEvent s).alloc = s.alloc := by
  unfold takeEvent; split <;> rfl
@[simp] theorem takeEvent_params (s : State) : (takeEvent s).params = s.params := by
  unfold takeEvent; split <;> rfl
@[simp] theorem takeEvent_env_draws (s : State) : (takeEvent s).env.draws = s.env.draws := by
  unfold takeEvent; split <;> rfl
@[simp] theorem takeEvent_env_clock (s : State) : (takeEvent s).env.clock = s.env.clock := by
  unfold takeEvent; split <;> rfl
@[simp] theorem takeEvent_env_peerUnits (s : State) : (takeEvent s).env.peerUnits = s.env.peerUnits := by
  unfold takeEvent; split <;> rfl
@[simp] theorem takeEvent_env_peerChans (s : State) : (takeEvent s).env.peerChans = s.env.peerChans := by
  unfold takeEvent; split <;> rfl
@[simp] theorem takeEvent_env_hostData (s : State) : (takeEvent s).env.hostData = s.env.hostData := by
  unfold takeEvent; split <;> rfl
@[simp] theorem prepare_ctl (s : State) : (prepare s).ctl = s.ctl := by
  simp [prepare]
@[simp] theorem prepare_seq (s : State) : (prepare s).seq = s.seq := by
  simp [prepare]
@[simp] theorem prepare_ch (s : State) : (prepare s).ch = s.ch := by
  simp [prepare]
@[simp] theorem prepare_buf (s : State) : (prepare s).buf = s.buf := by
  simp [prepare]
@[simp] theorem prepare_alloc (s : State) : (prepare s).alloc = s.alloc := by
  simp [prepare]
@[simp] theorem prepare_params (s : State) : (prepare s).params = s.params := by
  simp [prepare]
@[simp] theorem prepare_env_peerUnits (s : State) : (prepare s).env.peerUnits = s.env.peerUnits := by
  simp [prepare]
@[simp] theorem prepare_env_peerChans (s : State) : (prepare s).env.peerChans = s.env.peerChans := by
  simp [prepare]
@[simp] theorem prepare_env_hostData (s : State) : (prepare s).env.hostData = s.env.hostData := by
  simp [prepare]
@[simp] theorem prepare_env_draws (s : State) : (prepare s).env.draws = (nextEvent s).draws := rfl
@[simp] theorem prepare_env_clock (s : State) :
    (prepare s).env.clock = s.env.clock + (nextEvent s).draws.elapse := by
  simp [prepare]

end Sys2Proof.Machine
end

