-- ==== Sys2Proof/Laws/Memory.lean ====
section
/-! SUPPORT. The laws of the raw buffer: a read after a write, and that every operation keeps the canonical form. -/

namespace Sys2Proof.Machine

theorem bufGet_below {lo : Nat} {mem : Memory} (h : bufWfFrom lo mem = true) {a : Nat} (ha : a < lo) :
    bufGet mem a = bufUnlisted := by
  induction mem generalizing lo with
  | nil => rfl
  | cons c rest ih =>
    obtain ⟨b, v⟩ := c
    simp only [bufWfFrom, Bool.and_eq_true, decide_eq_true_eq] at h
    obtain ⟨⟨⟨hlo, -⟩, -⟩, hr⟩ := h
    have hab : a ≠ b := by omega
    simp only [bufGet, if_neg hab]
    exact ih hr (by omega)

theorem bufWfFrom_mono {lo lo' : Nat} {mem : Memory} (h : bufWfFrom lo mem = true) (hle : lo' ≤ lo) :
    bufWfFrom lo' mem = true := by
  cases mem with
  | nil => rfl
  | cons c rest =>
    obtain ⟨b, v⟩ := c
    simp only [bufWfFrom, Bool.and_eq_true, decide_eq_true_eq] at h ⊢
    exact ⟨⟨⟨by omega, h.1.1.2⟩, h.1.2⟩, h.2⟩

theorem bufPut_wfFrom {lo : Nat} {mem : Memory} (h : bufWfFrom lo mem = true) {a : Nat} (v : Byte) (hlo : lo ≤ a)
    (ha : a < bufSize) : bufWfFrom lo (bufPut a v mem) = true := by
  induction mem generalizing lo with
  | nil =>
    simp only [bufPut]
    split
    · rfl
    · rename_i hv
      simp [bufWfFrom, hlo, ha, hv]
  | cons c rest ih =>
    obtain ⟨b, u⟩ := c
    have h0 := h
    simp only [bufWfFrom, Bool.and_eq_true, decide_eq_true_eq] at h
    obtain ⟨⟨⟨hb, hb'⟩, hu⟩, hr⟩ := h
    simp only [bufPut]
    split
    · split
      · exact h0
      · rename_i hab hv
        simp only [bufWfFrom, Bool.and_eq_true, decide_eq_true_eq]
        exact ⟨⟨⟨hlo, ha⟩, hv⟩, ⟨⟨⟨by omega, hb'⟩, hu⟩, hr⟩⟩
    · split
      · split
        · exact bufWfFrom_mono hr (by omega)
        · rename_i hab hv
          subst hab
          simp only [bufWfFrom, Bool.and_eq_true, decide_eq_true_eq]
          exact ⟨⟨⟨hlo, ha⟩, hv⟩, hr⟩
      · simp only [bufWfFrom, Bool.and_eq_true, decide_eq_true_eq]
        exact ⟨⟨⟨hb, hb'⟩, hu⟩, ih hr (by omega)⟩

/-- A read of the address just written gives the byte written. -/
theorem bufGet_bufPut_same {lo : Nat} {mem : Memory} (h : bufWfFrom lo mem = true) (a : Nat) (v : Byte) :
    bufGet (bufPut a v mem) a = v := by
  induction mem generalizing lo with
  | nil =>
    simp only [bufPut]
    split
    · rename_i hv
      exact hv.symm
    · simp [bufGet]
  | cons c rest ih =>
    obtain ⟨b, u⟩ := c
    have h0 := h
    simp only [bufWfFrom, Bool.and_eq_true, decide_eq_true_eq] at h
    obtain ⟨⟨⟨hb, hb'⟩, hu⟩, hr⟩ := h
    simp only [bufPut]
    split
    · split
      · rename_i hab hv
        subst hv
        have hne : a ≠ b := by omega
        simp only [bufGet, if_neg hne]
        exact bufGet_below hr (by omega)
      · simp [bufGet]
    · split
      · split
        · rename_i hab hv
          subst hab hv
          exact bufGet_below hr (by omega)
        · simp [bufGet]
      · rename_i hab hne
        simp only [bufGet, if_neg hne]
        exact ih hr

/-- A write leaves every other address alone, whatever the list. -/
theorem bufGet_bufPut_other (mem : Memory) {a b : Nat} (v : Byte) (hne : b ≠ a) :
    bufGet (bufPut a v mem) b = bufGet mem b := by
  induction mem with
  | nil => simp only [bufPut]; split <;> simp [bufGet, hne]
  | cons c rest ih =>
    obtain ⟨d, u⟩ := c
    simp only [bufPut]
    split
    · split <;> simp [bufGet, hne]
    · split
      · rename_i hab
        subst hab
        split <;> simp [bufGet, hne]
      · simp only [bufGet, ih]

/-- `memWrite` keeps the canonical form and the rest of the state. -/
theorem memWrite_keeps_wf {a : Nat} {v : Byte} {s s' : State} (h : memWrite a v s = some s')
    (hw : Memory.wf s.buf = true) : Memory.wf s'.buf = true := by
  unfold memWrite at h
  split at h
  · obtain rfl := Option.some.inj h
    exact bufPut_wfFrom hw v (Nat.zero_le a) ‹_›
  · cases h

/-- `bufZero` leaves the canonical form of five zeros. -/
theorem bufZero_wf (s : State) : Memory.wf (bufZero s).buf = true := rfl

/-- After `bufZero` every address reads 0. -/
theorem bufZero_reads_zero (s : State) (a : Nat) : bufGet (bufZero s).buf a = 0 := rfl

/-- The reset buffer is canonical. -/
theorem reset_buf_wf : Memory.wf State.reset.buf = true := rfl

end Sys2Proof.Machine
end

