-- ==== Sys2Proof/Laws/Ops.lean ====
section
/-! SUPPORT. One lemma per shared operation that says everything it can do, so that a proof cites it instead of
unfolding the operation: the command step, the claims, the channel's transfer, the packing of a bit, the FINISH
sub-phases, the tick, and the step itself. -/

namespace Sys2Proof.Machine

/-! ## Registers -/

/-- Joining two bit vectors, as numbers: the register packings are sums of their fields (30 R91 to R101). -/
theorem toNat_append_add {m n : Nat} (x : BitVec m) (y : BitVec n) :
    (x ++ y).toNat = x.toNat * 2 ^ n + y.toNat := by
  rw [BitVec.toNat_append, ← Nat.shiftLeft_add_eq_or_of_lt y.isLt, Nat.shiftLeft_eq]

/-! ## Allocator -/

theorem choose_mem {free : List Nat} {pick u : Nat} (h : choose free pick = some u) : u ∈ free := by
  unfold choose at h
  split at h
  · obtain rfl := Option.some.inj h
    assumption
  · exact List.mem_of_mem_head? h

/-- Every member of F can be chosen (60 R246: "a draw: any member of F"). -/
theorem choose_attains {free : List Nat} {u : Nat} (h : u ∈ free) : choose free u = some u := by
  simp [choose, h]

theorem choose_eq_none {free : List Nat} {pick : Nat} : choose free pick = none ↔ free = [] := by
  unfold choose
  cases free with
  | nil => simp
  | cons a rest => split <;> simp

theorem mem_freeUnits {b u : Nat} {s : State} :
    u ∈ freeUnits b s ↔ u < unitsPerBlock s.params ∧ (b, u) ∉ s.alloc.units := by
  simp [freeUnits]

theorem mem_freeChannels {c : Nat} {s : State} :
    c ∈ freeChannels s ↔ c < numChannels s.params ∧ c ∉ s.alloc.chans := by
  simp [freeChannels]

/-- Everything a successful unit claim does. -/
theorem claimUnit_some {b u : Nat} {s s' : State} (h : claimUnit b s = some (u, s')) :
    u < unitsPerBlock s.params ∧ (b, u) ∉ s.alloc.units ∧
      s' = holdUnit b u s := by
  unfold claimUnit at h
  split at h
  · cases h
  · rename_i v hv
    simp only [Option.some.injEq, Prod.mk.injEq] at h
    obtain ⟨rfl, rfl⟩ := h
    have := mem_freeUnits.1 (choose_mem hv)
    exact ⟨this.1, this.2, rfl⟩

/-- Everything a successful channel claim does. -/
theorem claimChannel_some {c : Nat} {s s' : State} (h : claimChannel s = some (c, s')) :
    c < numChannels s.params ∧ c ∉ s.alloc.chans ∧
      s' = holdChannel c s := by
  unfold claimChannel at h
  split at h
  · cases h
  · rename_i v hv
    simp only [Option.some.injEq, Prod.mk.injEq] at h
    obtain ⟨rfl, rfl⟩ := h
    have := mem_freeChannels.1 (choose_mem hv)
    exact ⟨this.1, this.2, rfl⟩

/-- Everything a program load does. -/
theorem loadProgram_some {b : Nat} {s s' : State} (h : loadProgram b s = some s') :
    s.env.draws.loadOk = true ∧ s' = holdProgram b s := by
  unfold loadProgram at h
  split at h
  · exact ⟨‹_›, (Option.some.inj h).symm⟩
  · cases h

theorem numBlocks_le (p : Params) : numBlocks p ≤ 4 := by
  have := p.numBlocksLess1.isLt
  unfold numBlocks; omega

theorem unitsPerBlock_le (p : Params) : unitsPerBlock p ≤ 16 := by
  have := p.unitsPerBlockLess1.isLt
  unfold unitsPerBlock; omega

theorem numChannels_le (p : Params) : numChannels p ≤ 16 := by
  have := p.numChannelsLess1.isLt
  unfold numChannels; omega

theorem numPins_le (p : Params) : numPins p ≤ 32 := by
  have := p.numPinsLess1.isLt
  unfold numPins; omega

/-! ## Commands -/

/-- What a command step can do (42 R160). -/
theorem commandStep_cases (w : Word) (perform : State → State) (s : State) :
    (s.ctl.fatal = true ∧ commandStep w perform s = s) ∨
    (s.ctl.fatal = false ∧ s.ctl.state = .finishing ∧ commandStep w perform s = fatalEntry .busyReentry w s) ∨
    (s.ctl.fatal = false ∧ s.ctl.state ≠ .finishing ∧ commandStep w perform s = perform s) := by
  unfold commandStep
  cases hf : s.ctl.fatal <;> by_cases hs : s.ctl.state = .finishing <;> simp [hs]

theorem commandStep_runs {w : Word} {perform : State → State} {s : State} (hf : s.ctl.fatal = false)
    (hs : s.ctl.state ≠ .finishing) : commandStep w perform s = perform s := by
  simp [commandStep, hf, hs]

/-- What `INIT` can do past its checks: fail at one of its three claims, each keeping the claims before it, or write
the whole configuration (42 R162, 60 R234). -/
theorem initClaims_cases (w : Word) (m : Model) (u : Bool) (p b : Nat) (s : State) :
    (claimUnit b s = none ∧ initClaims w m u p b s = fatalEntry .noFreeUnit w s) ∨
    (∃ uid s1, claimUnit b s = some (uid, s1) ∧
      ((claimChannel s1 = none ∧ initClaims w m u p b s = fatalEntry .noFreeChannel w s1) ∨
      (∃ cid s2, claimChannel s1 = some (cid, s2) ∧
        ((loadProgram b s2 = none ∧ initClaims w m u p b s = fatalEntry .noProgramSpace w s2) ∨
        (∃ s3, loadProgram b s2 = some s3 ∧ initClaims w m u p b s = initWrites m u p b uid cid s3))))) := by
  unfold initClaims
  cases h1 : claimUnit b s with
  | none => simp
  | some r1 =>
    obtain ⟨uid, s1⟩ := r1
    refine .inr ⟨uid, s1, rfl, ?_⟩
    cases h2 : claimChannel s1 with
    | none => simp [h2]
    | some r2 =>
      obtain ⟨cid, s2⟩ := r2
      refine .inr ⟨cid, s2, rfl, ?_⟩
      cases h3 : loadProgram b s2 with
      | none => simp [h2, h3]
      | some s3 => exact .inr ⟨s3, rfl, by simp [h2, h3]⟩

/-! ## Every instruction answers a next state -/

/-- The state an instruction leaves. -/
def execState (i : Instr) (s : State) : State :=
  match exec i s with
  | .next t => t
  | .fault _ => s
  | .refused _ => s

/-- No instruction of this block stops the machine: a failed check takes the fatal exception, which is a state. -/
theorem exec_next (i : Instr) (s : State) : exec i s = .next (execState i s) := by
  cases i <;> rfl

/-! ## The channel -/

/-- Everything a channel step can do (41 R142, R143). -/
theorem chTransfer_cases (s : State) :
    (chEnabled s = false ∧ chTransfer s = .next s) ∨
    (chEnabled s = true ∧ s.ch.count = 0 ∧ chTransfer s = .fault .chCountZero) ∨
    (chEnabled s = true ∧ s.ch.count ≠ 0 ∧ bufSize ≤ s.ch.dst ∧ chTransfer s = .fault (.bufAddress s.ch.dst)) ∨
    (∃ v rest, s.ch.busy = true ∧ s.seq.outq = v :: rest ∧ s.ch.count ≠ 0 ∧ s.ch.dst < bufSize ∧
      chTransfer s = .next { s with
        seq := { s.seq with outq := rest }
        buf := bufPut s.ch.dst v s.buf
        ch := { busy := decide (s.ch.count - 1 ≠ 0), count := s.ch.count - 1, dst := s.ch.dst + 1 } }) := by
  unfold chTransfer chEnabled
  cases hb : s.ch.busy with
  | false => simp
  | true =>
    cases hq : s.seq.outq with
    | nil => simp
    | cons v rest =>
      by_cases hc : s.ch.count = 0
      · simp [hc]
      · by_cases hd : s.ch.dst < bufSize
        · refine .inr (.inr (.inr ⟨v, rest, rfl, rfl, hc, hd, ?_⟩))
          simp [hc, memWrite, hd, chAdvance, hb]
        · refine .inr (.inr (.inl ⟨by simp, hc, by omega, ?_⟩))
          simp [hc, memWrite, hd]

/-! ## The sequencer -/

/-- What packing a bit can do (40 R120, falling edge). -/
theorem packBit_cases (b : Bool) (q : Seq) :
    (q.bitCnt + 1 < 8 ∧ packBit b q =
      { q with nBits := q.nBits + 1, isr := shiftIn q.isr b, bitCnt := q.bitCnt + 1, phase := 7 }) ∨
    (8 ≤ q.bitCnt + 1 ∧ queueDepth ≤ q.outq.length ∧ packBit b q =
      { q with nBits := q.nBits + 1, isr := shiftIn q.isr b, bitCnt := 8, phase := 9 }) ∨
    (8 ≤ q.bitCnt + 1 ∧ q.outq.length < queueDepth ∧ packBit b q =
      { q with nBits := q.nBits + 1, outq := q.outq ++ [shiftIn q.isr b], isr := 0, bitCnt := 0
               phase := afterPush (q.nBits + 1) }) := by
  unfold packBit
  by_cases h1 : q.bitCnt + 1 < 8
  · simp [h1]
  · by_cases h2 : queueDepth ≤ q.outq.length
    · refine .inr (.inl ⟨by omega, h2, ?_⟩)
      simp [h1, queueFull, h2]
    · refine .inr (.inr ⟨by omega, by omega, ?_⟩)
      simp [h1, queueFull, h2, pushByte, queuePush]

/-- The tick in terms of the phase: no step while disabled, stuck in a reserved phase, else the phase's step. -/
theorem seqTick_cases (s : State) :
    ((s.seq.seqEn = false ∨ 10 < s.seq.phase.toNat) ∧ seqTick s = .next s) ∨
    (∃ i, s.seq.seqEn = true ∧ decode (.phase s.seq.phase) = .ok i ∧ encode i = .phase s.seq.phase ∧
      seqTick s = exec i s) := by
  unfold seqTick
  cases he : s.seq.seqEn with
  | false => simp
  | true =>
    have key : ∀ p : BitVec 4, (10 < p.toNat ∧ ∃ e, decodePhase p = .error e) ∨
        ∃ i, decodePhase p = .ok i ∧ encode i = .phase p := by
      intro p
      unfold decodePhase
      by_cases h0 : p = 0; · subst h0; exact .inr ⟨.pullStart, rfl, rfl⟩
      by_cases h1 : p = 1; · subst h1; exact .inr ⟨.pullThresh, rfl, rfl⟩
      by_cases h2 : p = 2; · subst h2; exact .inr ⟨.driveLow, rfl, rfl⟩
      by_cases h3 : p = 3; · subst h3; exact .inr ⟨.waitRelease, rfl, rfl⟩
      by_cases h4 : p = 4; · subst h4; exact .inr ⟨.waitAckLow, rfl, rfl⟩
      by_cases h5 : p = 5; · subst h5; exact .inr ⟨.waitAckHigh, rfl, rfl⟩
      by_cases h6 : p = 6; · subst h6; exact .inr ⟨.waitAckEnd, rfl, rfl⟩
      by_cases h7 : p = 7; · subst h7; exact .inr ⟨.waitBitHigh, rfl, rfl⟩
      by_cases h8 : p = 8; · subst h8; exact .inr ⟨.measureHigh, rfl, rfl⟩
      by_cases h9 : p = 9; · subst h9; exact .inr ⟨.pushStall, rfl, rfl⟩
      by_cases h10 : p = 10; · subst h10; exact .inr ⟨.done, rfl, rfl⟩
      refine .inl ⟨?_, _, by rw [if_neg h0, if_neg h1, if_neg h2, if_neg h3, if_neg h4, if_neg h5, if_neg h6,
        if_neg h7, if_neg h8, if_neg h9, if_neg h10]⟩
      have hlt := p.isLt
      by_contra hle
      have hp : p = BitVec.ofNat 4 p.toNat := by simp
      have : p.toNat ≤ 10 := by omega
      interval_cases hv : p.toNat <;> simp_all
    obtain ⟨hp, e, hd⟩ | ⟨i, hd, hi⟩ := key s.seq.phase
    · refine .inl ⟨.inr hp, ?_⟩
      simp [decode, hd]
    · refine .inr ⟨i, rfl, hd, hi, ?_⟩
      simp [decode, hd]

/-! ## The step -/

/-- The step performs its next event's action on the prepared state. -/
theorem step_eq (s : State) : step s = act (nextEvent s).action (prepare s) := rfl

theorem nextEvent_cons {s : State} {e : Event} {rest : List Event} (h : s.env.agenda = e :: rest) :
    nextEvent s = e := by
  simp [nextEvent, h]

theorem nextEvent_nil {s : State} (h : s.env.agenda = []) : nextEvent s = Config.freeEvent s.env.eventNo := by
  simp [nextEvent, h]

/-- A host access is refused by name, or is an aligned 32-bit one (20 R66, R70). -/
theorem hostAccess_next {width offset : Nat} {f : State → Host.Outcome State Fault Refusal} {s t : State}
    (h : hostAccess width offset f s = .next t) : width = 32 ∧ offset % 4 = 0 ∧ f s = .next t := by
  unfold hostAccess at h
  split at h
  · cases h
  · split at h
    · cases h
    · exact ⟨by omega, by omega, h⟩

/-- What a register write can do. -/
theorem writeReg_cases (offset : Nat) (v : Word) (s : State) :
    (offset = 0x00 ∧ writeReg offset v s = hostWriteCmd v s) ∨
    (offset = 0x20 ∧ writeReg offset v s = .next (writeDecIn0 v s)) ∨
    (offset = 0x24 ∧ writeReg offset v s = .next (writeDecIn1 v s)) ∨
    (offset ≠ 0x00 ∧ offset ≠ 0x20 ∧ offset ≠ 0x24 ∧ writeReg offset v s = .next s) := by
  by_cases h0 : offset = 0x00
  · subst h0; exact .inl ⟨rfl, rfl⟩
  · by_cases h1 : offset = 0x20
    · subst h1; exact .inr (.inl ⟨rfl, rfl⟩)
    · by_cases h2 : offset = 0x24
      · subst h2; exact .inr (.inr (.inl ⟨rfl, rfl⟩))
      · refine .inr (.inr (.inr ⟨h0, h1, h2, ?_⟩))
        unfold writeReg
        split <;> simp_all

/-- What a command write can do (42 R160). -/
theorem hostWriteCmd_cases (w : Word) (s : State) :
    (s.ctl.fatal = true ∧ hostWriteCmd w s = .next s) ∨
    (s.ctl.fatal = false ∧ (∃ e, decode (.command w) = .error e) ∧
      hostWriteCmd w s = .next (fatalEntry .illegalCommand w s)) ∨
    (∃ i, s.ctl.fatal = false ∧ decode (.command w) = .ok i ∧ hostWriteCmd w s = exec i s) := by
  unfold hostWriteCmd
  cases hf : s.ctl.fatal with
  | true => simp
  | false =>
    cases hd : decode (.command w) with
    | error e => simp [illegalCommand, hf]
    | ok i => simp

end Sys2Proof.Machine
end

