-- ==== Sys2Proof/Laws/PerInstr.lean ====
section
/-! SUPPORT. One statement about every instruction as syntax: its code selects its own row of the opcode table
(spec/30_encoding.md R83, R89: a word w selects a row when `(w & mask) = match`). -/

namespace Sys2Proof.Laws.TableRow

/-- The bits of a code as a number. -/
def codeBits : Code → Nat
  | .command w => w.toNat
  | .phase p => p.toNat

/-- The `mask` of an instruction's row. -/
def rowMask : Instr → Nat
  | .init _ _ _ _ => 0xFFFF808F
  | .decode _ => 0xFFFFFFCF
  | .nop | .deinit | .start | .finish => 0xFFFFFFFF
  | .pullStart | .pullThresh | .driveLow | .waitRelease | .waitAckLow | .waitAckHigh | .waitAckEnd | .waitBitHigh
  | .measureHigh | .pushStall | .done => 0xF

/-- The `match` of an instruction's row. -/
def rowMatch : Instr → Nat
  | .nop => 0
  | .init _ _ _ _ => 1
  | .deinit => 2
  | .start => 3
  | .finish => 4
  | .decode _ => 5
  | .pullStart => 0
  | .pullThresh => 1
  | .driveLow => 2
  | .waitRelease => 3
  | .waitAckLow => 4
  | .waitAckHigh => 5
  | .waitAckEnd => 6
  | .waitBitHigh => 7
  | .measureHigh => 8
  | .pushStall => 9
  | .done => 10

/-- The instruction's code selects its row. -/
def Statement (i : Instr) : Prop := codeBits (encode i) &&& rowMask i = rowMatch i

theorem nop : Statement .nop := rfl
theorem init (model : Model) (pullUp : Bool) (pin block : Nat) : Statement (.init model pullUp pin block) := by
  have key : ∀ (b : BitVec 2) (p : BitVec 5) (u : Bool) (m : BitVec 2),
      (0#17 ++ b ++ p ++ 0#1 ++ BitVec.ofBool u ++ m ++ 1#4 : Word) &&& 0xFFFF808F#32 = 1#32 := by decide
  have h := congrArg BitVec.toNat
    (key (BitVec.ofNat 2 block) (BitVec.ofNat 5 pin) pullUp (modelCode model))
  rw [BitVec.toNat_and] at h
  exact h
theorem deinit : Statement .deinit := rfl
theorem start : Statement .start := rfl
theorem finish : Statement .finish := rfl
theorem decode (model : Model) : Statement (.decode model) := by cases model <;> rfl
theorem pullStart : Statement .pullStart := rfl
theorem pullThresh : Statement .pullThresh := rfl
theorem driveLow : Statement .driveLow := rfl
theorem waitRelease : Statement .waitRelease := rfl
theorem waitAckLow : Statement .waitAckLow := rfl
theorem waitAckHigh : Statement .waitAckHigh := rfl
theorem waitAckEnd : Statement .waitAckEnd := rfl
theorem waitBitHigh : Statement .waitBitHigh := rfl
theorem measureHigh : Statement .measureHigh := rfl
theorem pushStall : Statement .pushStall := rfl
theorem done : Statement .done := rfl

end Sys2Proof.Laws.TableRow
end

