-- ==== Sys2Proof/Tests/Slice0.lean ====
section
/-! SUPPORT. The model's own tests, with expected values from spec/95_test_vectors.md and the rules' examples, and for
every statement with hypotheses a witness that meets them. -/

namespace Sys2Proof.Tests

open Sys2Proof.Machine

/-! ## Small states -/

/-- The test values of the open parameters of spec/95 (`P_NUM_INSTANCES` = 2 is this file's own). -/
def testParams : Params :=
  { threshM0 := 50, threshM1 := 50, threshM2 := 50, threshM3 := 50, sysClkMHzLess1 := 124, numBlocksLess1 := 1
    unitsPerBlockLess1 := 3, numChannelsLess1 := 11, numPinsLess1 := 29, numInstancesLess1 := 1
    coreBase := 0x40000000, minIntervalUs := 2000000 }

/-- The reset state with those parameters. -/
def fresh : State := { State.reset with params := testParams }

/-- IDLE after `INIT model=M3, pin=15, pull_up=1, block=0`. -/
def idleM3 : State :=
  { fresh with
    ctl := { fresh.ctl with
      state := .idle, div := 125
      config := { model := .m3, pullUp := true, pin := 15, block := 0, unitId := 0, chanId := 0, progLoaded := true } }
    seq := { fresh.seq with pull := true }
    alloc := { units := [(0, 0)], chans := [0], progs := [0] } }

/-- ARMED right after START. -/
def armedM3 : State :=
  { idleM3 with
    ctl := { idleM3.ctl with state := .armed }
    seq := { idleM3.seq with seqEn := true, inq := [1000, 50] }
    ch := { busy := true, count := 5, dst := 0 } }

/-- FINISHING in the given sub-phase, the channel waiting. -/
def finishing (f : FinSub) : State :=
  { armedM3 with ctl := { armedM3.ctl with state := .finishing, finSub := f } }

/-- The sequencer running in phase `p`. -/
def running (p : BitVec 4) : State := { armedM3 with seq := { armedM3.seq with phase := p, inq := [], x := 3, y := 50 } }

/-- The frame E1 of spec/95 with its last bit about to be classified. -/
def lastBit : State :=
  { armedM3 with
    seq := { armedM3.seq with inq := [], phase := 8, x := 0, y := 50, w := 27, isr := 0x50, bitCnt := 7, nBits := 39 }
    ch := { busy := true, count := 1, dst := 4 }
    buf := [(0, 0x02), (1, 0x8C), (2, 0x01), (3, 0x11)] }

/-- Its fifth byte pushed. -/
def pushed : State :=
  { lastBit with seq := { lastBit.seq with phase := 10, isr := 0, bitCnt := 0, nBits := 40, outq := [0xA0] } }

/-- Its fifth byte moved, FINISH written. -/
def complete : State :=
  { pushed with
    ctl := { pushed.ctl with state := .finishing }
    seq := { pushed.seq with outq := [] }
    ch := { busy := false, count := 0, dst := 5 }
    buf := [(0, 0x02), (1, 0x8C), (2, 0x01), (3, 0x11), (4, 0xA0)] }

/-- The bits of that frame in arrival order, without the last. -/
def frameBits : List Bool :=
  [false, false, false, false, false, false, true, false, true, false, false, false, true, true, false, false,
   false, false, false, false, false, false, false, true, false, false, false, true, false, false, false, true,
   true, false, true, false, false, false, false]

/-- The fatal state of a DEINIT in UNINIT. -/
def faulted : State := fatalEntry .notInitialised 2 fresh

/-- The draws `line` and the others as they are. -/
def withLine (line : Bool) (s : State) : State := { s with env := { s.env with draws := { s.env.draws with line := line } } }

/-- The clock at `t`. -/
def atTime (t : Nat) (s : State) : State := { s with env := { s.env with clock := t } }

/-- The decode operand of frame E1. -/
def withFrame (s : State) : State :=
  { s with ctl := { s.ctl with decIn := { hh := 0x02, hl := 0x8C, th := 0x01, tl := 0x11, ck := 0xA0 } } }

/-- The next state, where there is one. -/
def after (o : Host.Outcome State Fault Refusal) : Option State :=
  match o with
  | .next s => some s
  | _ => none

/-- What a register reads after a step. -/
def reads (o : Host.Outcome State Fault Refusal) (offset : Nat) : Option Word :=
  (after o).map (fun s => readReg s offset)

/-! ## Well-formedness and decoding -/

theorem test_wellFormed_pin_refused : (Instr.init .m0 false 32 0).wellFormed = false := by decide
theorem test_wellFormed_block_refused : (Instr.init .m0 false 0 4).wellFormed = false := by decide
theorem test_wellFormed_top_operands : (Instr.init .m3 true 31 3).wellFormed = true := by decide

/-- The words of spec/95's CMD-DEC table. -/
theorem test_decode_commands :
    decode (.command 0b00000000000000000000000000000000) = .ok .nop ∧
    decode (.command 0b00000000000000000111111101110001) = .ok (.init .m3 true 31 3) ∧
    decode (.command 0b00000000000000000010001001000001) = .ok (.init .m0 true 2 1) ∧
    decode (.command 0b00000000000000000000000000000010) = .ok .deinit ∧
    decode (.command 0b00000000000000000000000000000011) = .ok .start ∧
    decode (.command 0b00000000000000000000000000000100) = .ok .finish ∧
    decode (.command 0b00000000000000000000000000000101) = .ok (.decode .m0) ∧
    decode (.command 0b00000000000000000000000000010101) = .ok (.decode .m1) ∧
    decode (.command 0b00000000000000000000000000100101) = .ok (.decode .m2) ∧
    decode (.command 0b00000000000000000000000000110101) = .ok (.decode .m3) :=
  ⟨rfl, rfl, rfl, rfl, rfl, rfl, rfl, rfl, rfl, rfl⟩

theorem test_decode_illegal_commands :
    decode (.command 0x00000081) = .error (.reservedBits 1) ∧ decode (.command 0x00008001) = .error (.reservedBits 1) ∧
    decode (.command 0x80000001) = .error (.reservedBits 1) ∧ decode (.command 0x00000006) = .error (.reservedOp 6) ∧
    decode (.command 0x00000012) = .error (.reservedBits 2) ∧ decode (.command 0x00000013) = .error (.reservedBits 3) ∧
    decode (.command 0x00000045) = .error (.reservedBits 5) ∧ decode (.command 0x00000010) = .error (.reservedBits 0) :=
  ⟨rfl, rfl, rfl, rfl, rfl, rfl, rfl, rfl⟩

/-- The phase codes of 30 R89. -/
theorem test_decode_phases :
    decode (.phase 0) = .ok .pullStart ∧ decode (.phase 1) = .ok .pullThresh ∧ decode (.phase 2) = .ok .driveLow ∧
    decode (.phase 3) = .ok .waitRelease ∧ decode (.phase 4) = .ok .waitAckLow ∧
    decode (.phase 5) = .ok .waitAckHigh ∧ decode (.phase 6) = .ok .waitAckEnd ∧
    decode (.phase 7) = .ok .waitBitHigh ∧ decode (.phase 8) = .ok .measureHigh ∧
    decode (.phase 9) = .ok .pushStall ∧ decode (.phase 10) = .ok .done ∧
    decode (.phase 11) = .error (.reservedPhase 11) ∧ decode (.phase 15) = .error (.reservedPhase 15) :=
  ⟨rfl, rfl, rfl, rfl, rfl, rfl, rfl, rfl, rfl, rfl, rfl, rfl, rfl⟩

theorem test_table_words :
    decodeTableWord 32 0xF71 = some (.init .m3 true 15 0) ∧ decodeTableWord 8 10 = some .done ∧
    decodeTableWord 8 11 = none := by decide

/-! ## The commands (spec/95, families CTL and FAULTS) -/

theorem test_nop : reads (step (finishing .wait |>.withFetchWord 32 0)) 0x04 = some 0x00004033 := by decide
theorem test_init_registers :
    reads (step (fresh.withFetchWord 32 0x00000F71)) 0x04 = some 0x00004001 ∧
    reads (step (fresh.withFetchWord 32 0x00000F71)) 0x08 = some 0x80000F07 := by decide
theorem test_init_drawn_ids :
    reads (exec (.init .m3 true 15 0)
      { fresh with env := { fresh.env with draws := { fresh.env.draws with unitPick := 2, chanPick := 7 } } }) 0x08
      = some 0x87020F07 := by decide
theorem test_deinit : reads (exec .deinit idleM3) 0x04 = some 0x00004000 := by decide
theorem test_deinit_uninit :
    reads (exec .deinit fresh) 0x28 = some 0x00000002 ∧ reads (exec .deinit fresh) 0x04 = some 0x00000840 := by decide
theorem test_start :
    reads (exec .start (atTime 1000 idleM3)) 0x04 = some 0x00004032 ∧
    reads (exec .start (atTime 1000 idleM3)) 0x0C = some 0x000003E8 ∧
    reads (exec .start (atTime 1000 idleM3)) 0x2C = some 0x00820000 ∧
    reads (exec .start (atTime 1000 idleM3)) 0x30 = some 0x00000105 := by decide
theorem test_start_timing_words : (after (exec .start idleM3)).map (·.seq.inq) = some [1000, 50] := by decide
theorem test_finish : reads (exec .finish armedM3) 0x04 = some 0x00004033 := by decide
theorem test_finish_idle : reads (exec .finish idleM3) 0x28 = some 0x00000004 := by decide
theorem test_decode_command :
    reads (exec (.decode .m3) (withFrame fresh)) 0x18 = some 0x0000028C ∧
    reads (exec (.decode .m3) (withFrame fresh)) 0x1C = some 0x00000111 ∧
    reads (exec (.decode .m3) (withFrame fresh)) 0x04 = some 0x00001000 := by decide
theorem test_decode_fatal : after (exec (.decode .m3) (withFrame faulted)) = some (withFrame faulted) := by decide

theorem test_illegal_before_finishing :
    reads (step (place (.hostWrite 32 0 0x00000013) (finishing .wait))) 0x04 = some 0x00004173 := by decide

/-! ## The phases (spec/95, family SEQ) -/

theorem test_pullStart :
    (after (exec .pullStart { armedM3 with seq := { armedM3.seq with inq := [18000, 50] } })).map
      (fun s => (s.seq.x, s.seq.inq, s.seq.phase)) = some (18000, [50], 1) := by decide
theorem test_pullThresh :
    (after (exec .pullThresh { armedM3 with seq := { armedM3.seq with x := 1000, inq := [50] } })).map
      (fun s => (s.seq.y, s.seq.pinDir, s.seq.phase)) = some (50, true, 2) := by decide
theorem test_pullThresh_no_pulse :
    (after (exec .pullThresh { armedM3 with seq := { armedM3.seq with x := 0, inq := [50] } })).map
      (fun s => (s.seq.y, s.seq.pinDir, s.seq.phase)) = some (50, false, 3) := by decide
theorem test_driveLow :
    (after (exec .driveLow { running 2 with seq := { (running 2).seq with pinDir := true } })).map
      (fun s => (s.seq.x, s.seq.pinDir, s.seq.phase)) = some (2, true, 2) := by decide
theorem test_driveLow_releases :
    (after (exec .driveLow { running 2 with seq := { (running 2).seq with x := 1, pinDir := true } })).map
      (fun s => (s.seq.x, s.seq.pinDir, s.seq.phase)) = some (0, false, 3) := by decide
theorem test_waitRelease :
    (after (exec .waitRelease (withLine true (running 3)))).map (·.seq.phase) = some 4 := by decide
theorem test_waitAckLow :
    (after (exec .waitAckLow (withLine false (running 4)))).map (·.seq.phase) = some 5 := by decide
theorem test_waitAckHigh :
    (after (exec .waitAckHigh (withLine true (running 5)))).map (·.seq.phase) = some 6 := by decide
theorem test_waitAckEnd :
    (after (exec .waitAckEnd (withLine false (running 6)))).map (·.seq.phase) = some 7 := by decide
theorem test_waitBitHigh :
    (after (exec .waitBitHigh (withLine true (running 7)))).map (fun s => (s.seq.w, s.seq.phase)) = some (1, 8) := by
  decide
theorem test_measureHigh_packs :
    (after (exec .measureHigh (withLine false { running 8 with seq := { (running 8).seq with
      w := 70, isr := 0x05, bitCnt := 7, nBits := 7 } }))).map
      (fun s => (s.seq.outq, s.seq.isr, s.seq.bitCnt, s.seq.nBits, s.seq.phase)) = some ([0x0B], 0, 0, 8, 7) := by
  decide
theorem test_measureHigh_stalls :
    reads (exec .measureHigh (withLine false { lastBit with seq := { lastBit.seq with outq := [1, 2, 3, 4] } })) 0x2C
      = some 0xA0C02889 := by decide
theorem test_pushStall :
    (after (exec .pushStall { lastBit with seq := { lastBit.seq with
      isr := 0xA0, bitCnt := 8, nBits := 40, outq := [1, 2, 3] } })).map
      (fun s => (s.seq.outq, s.seq.isr, s.seq.phase)) = some ([1, 2, 3, 0xA0], 0, 10) := by decide
theorem test_done : after (exec .done pushed) = some pushed := by decide

/-! ## Channel, sub-phases, decoder, registers -/

theorem test_fifth_transfer : reads (step (place .chStep pushed)) 0x30 = some 0x00000050 := by decide
theorem test_wait_boundary :
    reads (step (place .ctlStep (atTime 6999 (finishing .wait)))) 0x04 = some 0x00004033 ∧
    reads (step (place .ctlStep (atTime 7000 (finishing .wait)))) 0x04 = some 0x00004037 := by decide
theorem test_elapsed_wraps :
    elapsed 0x00001000 { fresh with ctl := { fresh.ctl with startTs := 0xFFFFF000 } } = 8192 := by decide
theorem test_check_timeout :
    reads (step (place .ctlStep { finishing .check with seq := seqDisable (finishing .check).seq })) 0x04
      = some 0x00006001 := by decide
theorem test_check_ok :
    reads (step (place .ctlStep { complete with ctl := { complete.ctl with finSub := .check } })) 0x18
      = some 0x0000028C := by decide
theorem test_frame_split_negated :
    frameDecode .m1 { hh := 0x02, hl := 0x8C, th := 0x81, tl := 0x11, ck := 0x20 } =
      { result := .ok, hum := 160, temp := 0xFAE5, tneg := true, tclamp := false } := by decide
theorem test_frame_clamped :
    frameDecode .m0 { hh := 0xFF, hl := 0xFF, th := 0xFF, tl := 0xFF, ck := 0xFC } =
      { result := .ok, hum := 2805, temp := 0, tneg := false, tclamp := true } := by decide
theorem test_frame_negative_zero :
    frameDecode .m2 { hh := 0x00, hl := 0x00, th := 0x80, tl := 0x00, ck := 0x80 } =
      { result := .ok, hum := 0, temp := 0, tneg := true, tclamp := false } := by decide
theorem test_decIn1_write :
    reads (step (place (.hostWrite 32 0x24 0xFFFFFFFF) fresh)) 0x24 = some 0x000000FF := by decide
theorem test_narrow_access_refused : step (place (.hostRead 8 0x04) fresh) = .refused (.accessWidth 8) := rfl

/-! ## Witnesses: states and operands that meet each statement's hypotheses

One theorem per statement, named after it; a clause with its own hypotheses has its own conjunct. -/

/-- The next state is `t`, for the statements about a step. -/
def gives (s t : State) : Prop := step s = .next t

theorem witness_DecodeOfEncodeIsIdentity :
    (Instr.init .m3 true 31 3).wellFormed = true ∧ (Instr.init .m0 false 0 0).wellFormed = true ∧
    Instr.done.wellFormed = true := by decide

theorem witness_EncodeOfDecodeIsIdentity :
    decode (.command 0x00007F71) = .ok (.init .m3 true 31 3) ∧ decode (.phase 10) = .ok .done := ⟨rfl, rfl⟩

theorem witness_OperandsAreTheWordFields :
    decode (.command 0x00007F71) = .ok (.init .m3 true 31 3) ∧ decode (.command 0x00000035) = .ok (.decode .m3) :=
  ⟨rfl, rfl⟩

theorem witness_NextEventIsTakenInOrder :
    (place .seqTick fresh).env.agenda = { action := .seqTick, draws := placedDraws fresh } :: [] ∧
    fresh.env.agenda = [] := by decide

theorem witness_StepRunsTheCommandWritten :
    (nextEvent (place (.hostWrite 32 0 0x00000F71) fresh)).action = .hostWrite 32 0x00 0x00000F71 ∧
    decode (.command 0x00000F71) = .ok (.init .m3 true 15 0) := ⟨by decide, rfl⟩

theorem witness_StepRunsThePhaseHeld :
    (nextEvent (place .seqTick (running 10))).action = .seqTick ∧ (place .seqTick (running 10)).seq.seqEn = true ∧
    decode (.phase (place .seqTick (running 10)).seq.phase) = .ok .done := ⟨by decide, by decide, rfl⟩

theorem witness_IllegalCommandIsFatal :
    (nextEvent (place (.hostWrite 32 0 6) idleM3)).action = .hostWrite 32 0x00 6 ∧
    (nextEvent (place (.hostWrite 32 0 6) faulted)).action = .hostWrite 32 0x00 6 ∧
    (∀ i, decode (.command 6) ≠ .ok i) ∧ (place (.hostWrite 32 0 6) idleM3).ctl.fatal = false ∧
    (place (.hostWrite 32 0 6) faulted).ctl.fatal = true :=
  ⟨by decide, by decide, fun i h => (nomatch (show Except.error (DecodeError.reservedOp 6) = Except.ok i from h)),
    by decide, by decide⟩

theorem witness_AgentsNotEnabledStall :
    ((nextEvent (place .seqTick idleM3)).action = .seqTick ∧ (place .seqTick idleM3).seq.seqEn = false) ∧
    ((nextEvent (place .seqTick (running 11))).action = .seqTick ∧ 11 ≤ (place .seqTick (running 11)).seq.phase.toNat) ∧
    ((nextEvent (place .chStep complete)).action = .chStep ∧ (place .chStep complete).ch.busy = false) ∧
    ((nextEvent (place .chStep armedM3)).action = .chStep ∧ (place .chStep armedM3).seq.outq = []) ∧
    ((nextEvent (place .ctlStep faulted)).action = .ctlStep ∧ (place .ctlStep faulted).ctl.fatal = true) ∧
    ((nextEvent (place .ctlStep armedM3)).action = .ctlStep ∧ (place .ctlStep armedM3).ctl.state ≠ .finishing) := by
  decide

/-- The largest block and pin that the test parameters allow. -/
theorem witness_InitConfiguresTheInstance :
    fresh.ctl.fatal = false ∧ fresh.ctl.state = .uninit ∧ 1 < numBlocks fresh.params ∧ 29 < numPins fresh.params ∧
    freeUnits 1 fresh ≠ [] ∧ freeChannels fresh ≠ [] ∧ fresh.env.draws.loadOk = true ∧
    fresh.env.draws.unitPick ∈ freeUnits 1 fresh ∧ fresh.env.draws.chanPick ∈ freeChannels fresh := by decide

/-- Every unit of block 0 claimed. -/
def noUnits : State := { fresh with alloc := { fresh.alloc with units := [(0, 0), (0, 1), (0, 2), (0, 3)] } }

/-- Every channel claimed. -/
def noChannels : State := { fresh with alloc := { fresh.alloc with chans := List.range 12 } }

/-- A block without room for the program. -/
def noSpace : State := { fresh with env := { fresh.env with draws := { fresh.env.draws with loadOk := false } } }

theorem witness_InitChecksInOrder :
    (idleM3.ctl.fatal = false ∧ idleM3.ctl.state ≠ .finishing ∧ idleM3.ctl.state ≠ .uninit) ∧
    (fresh.ctl.fatal = false ∧ fresh.ctl.state ≠ .finishing ∧ fresh.ctl.state = .uninit ∧ numBlocks fresh.params ≤ 2) ∧
    (1 < numBlocks fresh.params ∧ numPins fresh.params ≤ 30) ∧
    (noUnits.ctl.fatal = false ∧ noUnits.ctl.state = .uninit ∧ 0 < numBlocks noUnits.params ∧
      29 < numPins noUnits.params ∧ freeUnits 0 noUnits = []) ∧
    (noChannels.ctl.fatal = false ∧ noChannels.ctl.state = .uninit ∧ 0 < numBlocks noChannels.params ∧
      29 < numPins noChannels.params ∧ freeUnits 0 noChannels ≠ [] ∧ freeChannels noChannels = []) ∧
    (noSpace.ctl.fatal = false ∧ noSpace.ctl.state = .uninit ∧ 0 < numBlocks noSpace.params ∧
      29 < numPins noSpace.params ∧ freeUnits 0 noSpace ≠ [] ∧ freeChannels noSpace ≠ [] ∧
      noSpace.env.draws.loadOk = false) := by decide

theorem witness_DeinitReleasesEverything :
    (finishing .wait).ctl.fatal = false ∧ (finishing .wait).ctl.state = .finishing ∧ fresh.ctl.fatal = false ∧
    fresh.ctl.state = .uninit ∧ armedM3.ctl.fatal = false ∧ armedM3.ctl.state = .armed := by decide

/-- IDLE with the largest threshold that a timing word holds. -/
def widest : State := { idleM3 with params := { testParams with threshM3 := 4294967295 } }

theorem witness_StartArmsTheMeasurement :
    (finishing .wait).ctl.fatal = false ∧ (finishing .wait).ctl.state = .finishing ∧ armedM3.ctl.fatal = false ∧
    armedM3.ctl.state = .armed ∧ widest.ctl.fatal = false ∧ widest.ctl.state = .idle ∧
    widest.ctl.config.model = .m3 ∧ widest.params.threshM3 < 2 ^ 32 := by decide

theorem witness_FinishStartsTheWait :
    (finishing .wait).ctl.fatal = false ∧ (finishing .wait).ctl.state = .finishing ∧ idleM3.ctl.fatal = false ∧
    idleM3.ctl.state = .idle ∧ armedM3.ctl.fatal = false ∧ armedM3.ctl.state = .armed := by decide

theorem witness_DecodeWritesTheReading :
    fresh.ctl.fatal = false ∧ fresh.ctl.state ≠ .finishing ∧ (finishing .wait).ctl.fatal = false ∧
    (finishing .wait).ctl.state = .finishing := by decide

theorem witness_CommandsDuringFinishAreReentry :
    (finishing .disable).ctl.fatal = false ∧ (finishing .disable).ctl.state = .finishing ∧
    encode (.init .m3 true 15 0) = .command 0x00000F71 ∧ Instr.init .m3 true 15 0 ≠ .nop := by decide

theorem witness_FatalStateIgnoresCommands :
    faulted.ctl.fatal = true ∧
    (nextEvent (place (.hostWrite 32 0x00 2) faulted)).action = .hostWrite 32 0x00 2 ∧
    (nextEvent (place (.hostWrite 32 0x20 2) faulted)).action = .hostWrite 32 0x20 2 ∧
    (nextEvent (place (.hostWrite 32 0x24 2) faulted)).action = .hostWrite 32 0x24 2 := by decide

theorem witness_FatalStateLastsUntilReset :
    (place .ctlStep faulted).ctl.fatal = true ∧ gives (place .ctlStep faulted) faulted := ⟨by decide, rfl⟩

theorem witness_OnlyCommandsEnterTheFatalState :
    (place (.hostWrite 32 0 2) fresh).ctl.fatal = false ∧ gives (place (.hostWrite 32 0 2) fresh) faulted ∧
    faulted.ctl.fatal = true := ⟨by decide, rfl, by decide⟩

/-- INIT with no channel left: the unit it claimed stays claimed. -/
theorem witness_FaultsArePrecise :
    noChannels.ctl.fatal = false ∧ exec (.init .m3 true 15 0) noChannels =
      .next (fatalEntry .noFreeChannel 0x00000F71 (holdUnit 0 0 noChannels)) ∧
    (fatalEntry .noFreeChannel 0x00000F71 (holdUnit 0 0 noChannels)).ctl.fatal = true ∧
    fresh.ctl.fatal = false ∧ exec .deinit fresh = .next faulted ∧ faulted.ctl.fatal = true ∧
    (∀ m u p b, Instr.deinit ≠ .init m u p b) :=
  ⟨by decide, rfl, by decide, by decide, rfl, by decide, fun _ _ _ _ h => Instr.noConfusion h⟩

theorem witness_TimingWordsAreLoadedInOrder :
    (running 0).seq.inq = [] ∧ armedM3.seq.inq = 1000 :: [50] ∧ armedM3.seq.x = 0 ∧
    ({ armedM3 with seq := { armedM3.seq with x := 1 } } : State).seq.x ≠ 0 ∧
    ({ armedM3 with seq := { armedM3.seq with x := 1 } } : State).seq.inq = 1000 :: [50] := by decide

theorem witness_DriveLowCountsAndReleases :
    ({ running 2 with seq := { (running 2).seq with x := 1 } } : State).seq.x = 1 ∧ (running 2).seq.x ≠ 1 ∧
    ({ running 2 with seq := { (running 2).seq with x := 0 } } : State).seq.x ≠ 1 := by decide

/-- A pulse of three ticks, with `n` ticks to come. -/
def pulse (n : Nat) : State :=
  { running 2 with
    seq := { (running 2).seq with pinDir := true }
    env := { (running 2).env with agenda := List.replicate n { action := .seqTick, draws := placedDraws fresh } } }

theorem witness_StartPulseLastsXTicks :
    ((pulse 2).env.agenda = (pulse 2).env.agenda ++ [] ∧ (∀ e ∈ (pulse 2).env.agenda, e.action = .seqTick) ∧
      (pulse 2).seq.seqEn = true ∧ (pulse 2).seq.phase = 2 ∧ (pulse 2).seq.pinDir = true ∧
      1 ≤ (pulse 2).seq.x.toNat ∧ (pulse 2).env.agenda.length < (pulse 2).seq.x.toNat) ∧
    ((pulse 3).env.agenda = (pulse 3).env.agenda ++ [] ∧ (∀ e ∈ (pulse 3).env.agenda, e.action = .seqTick) ∧
      (pulse 3).seq.seqEn = true ∧ (pulse 3).seq.phase = 2 ∧ (pulse 3).seq.pinDir = true ∧
      1 ≤ (pulse 3).seq.x.toNat ∧ (pulse 3).env.agenda.length = (pulse 3).seq.x.toNat) := by decide

/-- Both levels of a released line, and the driven pin over a high draw. -/
theorem witness_WaitPhasesFollowTheLine :
    true = (if (withLine true (running 3)).seq.pinDir = true then false else (withLine true (running 3)).env.draws.line) ∧
    false = (if (withLine false (running 3)).seq.pinDir = true then false
      else (withLine false (running 3)).env.draws.line) ∧
    false = (if (withLine true (pulse 0)).seq.pinDir = true then false else (withLine true (pulse 0)).env.draws.line) := by
  decide

theorem witness_MeasureHighClassifiesAndPacks :
    true = (if (withLine true lastBit).seq.pinDir = true then false else (withLine true lastBit).env.draws.line) ∧
    false = (if (withLine false lastBit).seq.pinDir = true then false else (withLine false lastBit).env.draws.line) ∧
    ({ lastBit with seq := { lastBit.seq with bitCnt := 6 } } : State).seq.bitCnt + 1 < 8 ∧
    (8 ≤ lastBit.seq.bitCnt + 1 ∧ lastBit.seq.outq.length < 4) ∧
    ({ lastBit with seq := { lastBit.seq with outq := [1, 2, 3] } } : State).seq.outq.length < 4 ∧
    4 ≤ ({ lastBit with seq := { lastBit.seq with outq := [1, 2, 3, 4] } } : State).seq.outq.length := by decide

theorem witness_PushStallRetriesThePush :
    4 ≤ ({ lastBit with seq := { lastBit.seq with outq := [1, 2, 3, 4] } } : State).seq.outq.length ∧
    ({ lastBit with seq := { lastBit.seq with outq := [1, 2, 3] } } : State).seq.outq.length < 4 := by decide

theorem witness_PhasesWriteTheSequencerAlone : encode .measureHigh = .phase 8 ∧ encode .done = .phase 10 := by decide

/-! The states of the invariant. -/

theorem place_inv {s : State} (a : Action) (h : StateInv s) : StateInv (place a s) :=
  ⟨⟨h.ctl.1, h.ctl.2, h.ctl.3, h.ctl.4, h.ctl.5, h.ctl.6, h.ctl.7⟩,
    ⟨h.seq.1, h.seq.2, h.seq.3, h.seq.4, h.seq.5, h.seq.6, h.seq.7, h.seq.8, h.seq.9, h.seq.10, h.seq.11, h.seq.12⟩,
    ⟨h.chan.1, h.chan.2, h.chan.3⟩, ⟨h.alloc.1, h.alloc.2, h.alloc.3, h.alloc.4⟩, h.buf⟩

theorem fresh_inv : StateInv fresh := by
  refine ⟨⟨?_, ?_, ?_, ?_, ?_, ?_, ?_⟩, ⟨?_, ?_, ?_, ?_, ?_, ?_, ?_, ?_, ?_, ?_, ?_, ?_⟩, ⟨?_, ?_, ?_⟩,
    ⟨fun p h => ?_, fun p h => ?_, ?_, ?_⟩, ?_⟩
  case refine_23 => exact nomatch h
  case refine_24 => exact nomatch h
  all_goals decide

theorem idleM3_inv : StateInv idleM3 := by
  refine ⟨⟨?_, ?_, ?_, ?_, ?_, ?_, ?_⟩, ⟨?_, ?_, ?_, ?_, ?_, ?_, ?_, ?_, ?_, ?_, ?_, ?_⟩, ⟨?_, ?_, ?_⟩,
    ⟨fun p h => ?_, fun p h => ?_, ?_, ?_⟩, ?_⟩
  case refine_23 => exact nomatch h
  case refine_24 => exact nomatch h
  all_goals decide

theorem lastBit_inv : StateInv lastBit := by
  refine ⟨⟨?_, ?_, ?_, ?_, ?_, ?_, ?_⟩, ⟨?_, ?_, ?_, ?_, ?_, ?_, ?_, ?_, ?_, ?_, ?_, ?_⟩, ⟨?_, ?_, ?_⟩,
    ⟨fun p h => ?_, fun p h => ?_, ?_, ?_⟩, ?_⟩
  case refine_23 => exact nomatch h
  case refine_24 => exact nomatch h
  all_goals decide

theorem pushed_inv : StateInv pushed := by
  refine ⟨⟨?_, ?_, ?_, ?_, ?_, ?_, ?_⟩, ⟨?_, ?_, ?_, ?_, ?_, ?_, ?_, ?_, ?_, ?_, ?_, ?_⟩, ⟨?_, ?_, ?_⟩,
    ⟨fun p h => ?_, fun p h => ?_, ?_, ?_⟩, ?_⟩
  case refine_23 => exact nomatch h
  case refine_24 => exact nomatch h
  all_goals decide

theorem complete_inv : StateInv complete := by
  refine ⟨⟨?_, ?_, ?_, ?_, ?_, ?_, ?_⟩, ⟨?_, ?_, ?_, ?_, ?_, ?_, ?_, ?_, ?_, ?_, ?_, ?_⟩, ⟨?_, ?_, ?_⟩,
    ⟨fun p h => ?_, fun p h => ?_, ?_, ?_⟩, ?_⟩
  case refine_23 => exact nomatch h
  case refine_24 => exact nomatch h
  all_goals decide

/-- The reset state with unit (0, 1) and channel 1 held by another instance. -/
def withPeer : State :=
  { fresh with
    alloc := { fresh.alloc with units := [(0, 1)], chans := [1] }
    env := { fresh.env with peerUnits := [(0, 1)], peerChans := [1] } }

theorem withPeer_inv : StateInv withPeer :=
  ⟨⟨by decide, by decide, by decide, by decide, by decide, by decide, by decide⟩,
    ⟨by decide, by decide, by decide, by decide, by decide, by decide, by decide, by decide, by decide, by decide,
      by decide, by decide⟩,
    ⟨by decide, by decide, by decide⟩, ⟨fun _ h => h, fun _ h => h, by decide, by decide⟩, by decide⟩

theorem witness_TransferMovesOneByte :
    (nextEvent (place .chStep pushed)).action = .chStep ∧ StateInv (place .chStep pushed) ∧
    (place .chStep pushed).ch.busy = true ∧ (place .chStep pushed).seq.outq = 0xA0 :: [] :=
  ⟨by decide, place_inv _ pushed_inv, by decide, by decide⟩

theorem witness_CompletionIsTheFifthTransfer :
    StateInv (place .chStep pushed) ∧ (nextEvent (place .chStep pushed)).action = .chStep ∧
    (place .chStep pushed).ch.busy = true ∧ ∃ t, gives (place .chStep pushed) t ∧ t.ch.busy = false :=
  ⟨place_inv _ pushed_inv, by decide, by decide, _, rfl, rfl⟩

theorem witness_WaitEndsOnIdleOrBudget :
    (nextEvent (place .ctlStep (atTime 6999 (finishing .wait)))).action = .ctlStep ∧
    (finishing .wait).ctl.fatal = false ∧ (finishing .wait).ctl.state = .finishing ∧
    (finishing .wait).ctl.finSub = .wait ∧ (finishing .wait).ch.busy = true ∧
    (BitVec.ofNat 32 (prepare (place .ctlStep (atTime 6999 (finishing .wait)))).env.clock -
      (finishing .wait).ctl.startTs).toNat < 7000 ∧
    7000 ≤ (BitVec.ofNat 32 (prepare (place .ctlStep (atTime 7000 (finishing .wait)))).env.clock -
      (finishing .wait).ctl.startTs).toNat ∧
    (complete.ch.busy = false ∧ complete.ctl.state = .finishing ∧ complete.ctl.finSub = .wait) := by decide

theorem witness_DisableFreezesTheSequencer :
    (nextEvent (place .ctlStep (finishing .disable))).action = .ctlStep ∧ (finishing .disable).ctl.fatal = false ∧
    (finishing .disable).ctl.state = .finishing ∧ (finishing .disable).ctl.finSub = .disable := by decide

/-- The frame complete and CHECK to come. -/
def checking : State := { complete with ctl := { complete.ctl with finSub := .check } }

theorem witness_CheckDecidesTheOutcome :
    ((nextEvent (place .ctlStep (finishing .check))).action = .ctlStep ∧ (finishing .check).ctl.fatal = false ∧
      (finishing .check).ctl.state = .finishing ∧ (finishing .check).ctl.finSub = .check ∧
      (finishing .check).ch.busy = true) ∧
    ((nextEvent (place .ctlStep checking)).action = .ctlStep ∧ checking.ctl.fatal = false ∧
      checking.ctl.state = .finishing ∧ checking.ctl.finSub = .check ∧ checking.ch.busy = false) := by decide

/-- FINISHING with three controller steps to come, the first `elapse` microseconds after the start. -/
def threeSteps (elapse : Nat) (s : State) : State :=
  { s with env := { s.env with agenda :=
    [{ action := .ctlStep, draws := { placedDraws s with elapse := elapse } },
      { action := .ctlStep, draws := placedDraws s }, { action := .ctlStep, draws := placedDraws s }] } }

theorem witness_FinishEndsInThreeSteps :
    ((threeSteps 7000 (finishing .wait)).env.agenda.length = 3 ∧
      (∀ e ∈ (threeSteps 7000 (finishing .wait)).env.agenda, e.action = .ctlStep) ∧
      (threeSteps 7000 (finishing .wait)).ctl.fatal = false ∧
      (threeSteps 7000 (finishing .wait)).ctl.state = .finishing ∧
      (threeSteps 7000 (finishing .wait)).ctl.finSub = .wait ∧
      budgetUs (threeSteps 7000 (finishing .wait)).ctl.config.model ≤
        (BitVec.ofNat 32 ((threeSteps 7000 (finishing .wait)).env.clock + 7000) -
          (threeSteps 7000 (finishing .wait)).ctl.startTs).toNat) ∧
    ((threeSteps 0 complete).ctl.fatal = false ∧ (threeSteps 0 complete).ctl.state = .finishing ∧
      (threeSteps 0 complete).ctl.finSub = .wait ∧ (threeSteps 0 complete).ch.busy = false) := by decide

/-- Frame E1 with the checksum the source prints, and with the right one (90 C2). -/
theorem witness_FrameDecodesToExactTenths :
    (0x02 + 0x8C + 0x01 + 0x11) % 256 ≠ (0x9A : Byte).toNat ∧
    ((0x02 : Byte).toNat + (0x8C : Byte).toNat + (0x01 : Byte).toNat + (0x11 : Byte).toNat) % 256 = (0xA0 : Byte).toNat ∧
    ((0x02 : Byte).toNat + (0x8C : Byte).toNat + (0x80 : Byte).toNat + (0x11 : Byte).toNat) % 256 = (0x1F : Byte).toNat := by
  decide

theorem witness_SingleByteChangesAreDetected :
    checksumOk { hh := 0x02, hl := 0x8C, th := 0x01, tl := 0x11, ck := 0xA0 } = true ∧ (0x82 : Byte) ≠ 0x02 ∧
    (0x8D : Byte) ≠ 0x8C ∧ (0x00 : Byte) ≠ 0x01 ∧ (0x10 : Byte) ≠ 0x11 ∧ (0xA1 : Byte) ≠ 0xA0 := by decide

/-- The ends of each encoding's range. -/
theorem witness_EveryReadingHasAFrame :
    (2805 ≤ 2805 ∧ (0 : Int) ≤ 1397 ∧ (1397 : Int) ≤ 1397) ∧ ((-2677 : Int) ≤ -2677 ∧ (-2677 : Int) ≤ -1280) ∧
    ((-2677 : Int) ≤ -1280 ∧ (-1280 : Int) ≤ -1280) ∧ (65535 ≤ 65535 ∧ (-32767 : Int) ≤ -32767 ∧ (-32767 : Int) ≤ 32767) := by
  decide

theorem witness_DebugRegistersShowThePipeline :
    (StateInv fresh ∧ fresh.ctl.state = .uninit) ∧ (StateInv pushed ∧ pushed.ctl.state ≠ .uninit) :=
  ⟨⟨fresh_inv, by decide⟩, pushed_inv, by decide⟩

theorem witness_HostReadsHaveNoSideEffect :
    0x40 % 4 = 0 ∧ (nextEvent (place (.hostRead 32 0x40) fresh)).action = .hostRead 32 0x40 ∧
    0x44 % 4 = 0 ∧ (nextEvent (place (.hostRead 32 0x44) fresh)).action = .hostRead 32 0x44 := by decide

theorem witness_WritesReachOnlyTheirRegister :
    (0x20 % 4 = 0 ∧ (nextEvent (place (.hostWrite 32 0x20 0x11018C02) fresh)).action = .hostWrite 32 0x20 0x11018C02) ∧
    (0x24 % 4 = 0 ∧ (nextEvent (place (.hostWrite 32 0x24 0xFFFFFFFF) fresh)).action = .hostWrite 32 0x24 0xFFFFFFFF) ∧
    (0x04 % 4 = 0 ∧ (nextEvent (place (.hostWrite 32 0x04 0xFFFFFFFF) fresh)).action = .hostWrite 32 0x04 0xFFFFFFFF) ∧
    (0x44 % 4 = 0 ∧ (nextEvent (place (.hostWrite 32 0x44 0x12345678) fresh)).action = .hostWrite 32 0x44 0x12345678) ∧
    0x04 ≠ 0x00 ∧ 0x04 ≠ 0x20 ∧ 0x04 ≠ 0x24 := by decide

theorem witness_OtherAccessesAreRefused :
    (8 ≠ 32 ∧ (nextEvent (place (.hostRead 8 0x04) fresh)).action = .hostRead 8 0x04) ∧
    (2 % 4 ≠ 0 ∧ (nextEvent (place (.hostWrite 32 2 0) fresh)).action = .hostWrite 32 2 0) := by decide

theorem witness_BlockResetClearsTheInstance :
    (nextEvent (place .blockReset faulted)).action = .blockReset := by decide

theorem witness_EveryStepKeepsTheInvariant :
    StateInv (place .seqTick lastBit) ∧ ∃ t, gives (place .seqTick lastBit) t :=
  ⟨place_inv _ lastBit_inv, _, rfl⟩

theorem witness_InvariantStatesNeverFault :
    StateInv (place (.hostRead 8 0x04) fresh) ∧ step (place (.hostRead 8 0x04) fresh) = .refused (.accessWidth 8) :=
  ⟨place_inv _ fresh_inv, rfl⟩

theorem captured_lastBit : Captured (place .seqTick lastBit) frameBits := ⟨by decide, by decide, by decide⟩

theorem witness_WireBitsReachTheBufferInOrder :
    StateInv (place .seqTick lastBit) ∧ Captured (place .seqTick lastBit) frameBits ∧
    ∃ t, gives (place .seqTick lastBit) t :=
  ⟨place_inv _ lastBit_inv, captured_lastBit, _, rfl⟩

theorem witness_WireBitPlaceInTheBuffer :
    StateInv complete ∧ Captured complete (frameBits ++ [false]) ∧ complete.ch.dst = 5 :=
  ⟨complete_inv, ⟨by decide, by decide, by decide⟩, by decide⟩

theorem witness_OnlyTheSequencerDrivesThePin :
    ({ running 1 with seq := { (running 1).seq with inq := [50] } } : State).seq.pinDir = false ∧
    ∃ t, gives (place .seqTick { running 1 with seq := { (running 1).seq with inq := [50] } }) t ∧
      t.seq.pinDir = true :=
  ⟨by decide, _, rfl, rfl⟩

theorem witness_NothingDisturbsARunningSequencer :
    StateInv (place .chStep pushed) ∧ (place .chStep pushed).seq.seqEn = true ∧
    (∃ t, gives (place .chStep pushed) t) ∧ (nextEvent (place .chStep pushed)).action ≠ .seqTick ∧
    (nextEvent (place .chStep pushed)).action ≠ .blockReset ∧
    (nextEvent (place .chStep pushed)).action ≠ .platformReset :=
  ⟨place_inv _ pushed_inv, by decide, ⟨_, rfl⟩, by decide, by decide, by decide⟩

/-- A DEINIT in IDLE. -/
theorem witness_IdleBufferIsStable :
    StateInv (place (.hostWrite 32 0 2) idleM3) ∧ (place (.hostWrite 32 0 2) idleM3).ctl.state = .idle ∧
    (∃ t, gives (place (.hostWrite 32 0 2) idleM3) t) ∧
    (nextEvent (place (.hostWrite 32 0 2) idleM3)).action ≠ .blockReset ∧
    (nextEvent (place (.hostWrite 32 0 2) idleM3)).action ≠ .platformReset ∧
    (∀ w, (nextEvent (place (.hostWrite 32 0 2) idleM3)).action = .hostWrite 32 0x00 w →
      decode (.command w) ≠ .ok .start ∧ ∀ m u p b, decode (.command w) ≠ .ok (.init m u p b)) := by
  refine ⟨place_inv _ idleM3_inv, by decide, ⟨_, rfl⟩, by decide, by decide, fun w h => ?_⟩
  obtain rfl : 2 = w := by
    have h' : Action.hostWrite 32 0 2 = .hostWrite 32 0 w := h
    exact (Action.hostWrite.inj h').2.2
  exact ⟨fun h => (nomatch (show Except.ok Instr.deinit = .ok .start from h)),
    fun m u p b h => (nomatch (show Except.ok Instr.deinit = .ok (.init m u p b) from h))⟩

theorem witness_StateChangesFollowTheTable :
    ∃ t, gives (place (.hostWrite 32 0 3) idleM3) t ∧ t.ctl.state ≠ (place (.hostWrite 32 0 3) idleM3).ctl.state :=
  ⟨_, rfl, by decide⟩

theorem witness_ParametersAndClockAreLawful : ∃ t, gives (threeSteps 7000 complete) t := ⟨_, rfl⟩

theorem witness_ClaimsAreExclusive :
    StateInv (place (.hostWrite 32 0 0x00000F71) withPeer) ∧
    (0, 1) ∈ (place (.hostWrite 32 0 0x00000F71) withPeer).env.peerUnits ∧
    1 ∈ (place (.hostWrite 32 0 0x00000F71) withPeer).env.peerChans ∧
    ∃ t, gives (place (.hostWrite 32 0 0x00000F71) withPeer) t ∧ t.ctl.state ≠ .uninit ∧
      (place (.hostWrite 32 0 0x00000F71) withPeer).ctl.state = .uninit :=
  ⟨place_inv _ withPeer_inv, by decide, by decide, _, rfl, by decide, by decide⟩

end Sys2Proof.Tests
end

section
/-! SUPPORT. The step (spec/00_scope.md R6, R13, R14): how the next event is taken, what an agent's step is when it is
enabled and when it is not, that no step changes the platform's parameters or moves the clock back, and the length of
the start pulse (spec/40_sequencer.md R114). -/

namespace Sys2Proof.Machine

/-! ## Taking the next event -/

theorem prepare_of_agenda_cons {s : State} {e : Event} {rest : List Event} (h : s.env.agenda = e :: rest) :
    prepare s = { s with env := { s.env with
      agenda := rest, draws := e.draws, clock := s.env.clock + e.draws.elapse } } := by
  simp [prepare, latchDraws, takeEvent, nextEvent_cons h, h]

theorem prepare_of_agenda_nil {s : State} (h : s.env.agenda = []) :
    prepare s = { s with env := { s.env with
      eventNo := s.env.eventNo + 1, draws := (Config.freeEvent s.env.eventNo).draws
      clock := s.env.clock + (Config.freeEvent s.env.eventNo).draws.elapse } } := by
  simp [prepare, latchDraws, takeEvent, nextEvent_nil h, h]

/-- Settles O6: one equation for each form of the agenda. -/
theorem nextEventIsTakenInOrder : Obligations.NextEventIsTakenInOrder :=
  ⟨fun _ _ _ h => ⟨nextEvent_cons h, prepare_of_agenda_cons h⟩,
    fun _ h => ⟨nextEvent_nil h, prepare_of_agenda_nil h⟩⟩

/-! ## A command written to `CMD` -/

/-- A command word decodes to one of the six host commands, never to a phase (30 R82, R83). -/
theorem decode_command_cases {w : Word} {i : Instr} (h : decode (.command w) = .ok i) :
    i = .nop ∨ (∃ m u p b, i = .init m u p b) ∨ i = .deinit ∨ i = .start ∨ i = .finish ∨ ∃ m, i = .decode m := by
  simp only [decode, decodeCommand] at h
  repeat' split at h
  all_goals cases h
  all_goals simp

theorem commandStep_of_fatal {w : Word} {perform : State → State} {s : State} (h : s.ctl.fatal = true) :
    commandStep w perform s = s := by
  simp [commandStep, h]

/-- In the fatal state a decoded command changes nothing (42 R160, 60 R236), so it makes no difference that the write
to `CMD` is ignored before it is decoded. -/
theorem exec_of_decode_command_of_fatal {w : Word} {i : Instr} {s : State} (hd : decode (.command w) = .ok i)
    (hf : s.ctl.fatal = true) : exec i s = .next s := by
  obtain rfl | ⟨m, u, p, b, rfl⟩ | rfl | rfl | rfl | ⟨m, rfl⟩ := decode_command_cases hd
  · rfl
  all_goals exact congrArg Host.Outcome.next (commandStep_of_fatal hf)

theorem hostWriteCmd_of_decode {w : Word} {i : Instr} (hd : decode (.command w) = .ok i) (s : State) :
    hostWriteCmd w s = exec i s := by
  obtain ⟨hf, hw⟩ | ⟨-, ⟨e, he⟩, -⟩ | ⟨j, -, hj, hw⟩ := hostWriteCmd_cases w s
  · rw [hw, exec_of_decode_command_of_fatal hd hf]
  · cases hd.symm.trans he
  · cases hd.symm.trans hj
    exact hw

/-- An aligned 32-bit write at offset 0 is a write to `CMD` (20 R66, 30 R90). -/
theorem step_of_cmd_write {s : State} {w : Word} (h : (nextEvent s).action = .hostWrite 32 0x00 w) :
    step s = hostWriteCmd w (prepare s) := by
  rw [step_eq, h]
  rfl

/-- Settles O7: outside the fatal state the write decodes and executes; in it neither side changes anything. -/
theorem stepRunsTheCommandWritten : Obligations.StepRunsTheCommandWritten :=
  fun s _ _ ha hd => (step_of_cmd_write ha).trans (hostWriteCmd_of_decode hd (prepare s))

/-! ## A sequencer tick -/

theorem seqTick_of_decode {s : State} {i : Instr} (hen : s.seq.seqEn = true)
    (hd : decode (.phase s.seq.phase) = .ok i) : seqTick s = exec i s := by
  simp [seqTick, hen, hd]

theorem step_of_tick {s : State} (h : (nextEvent s).action = .seqTick) : step s = seqTick (prepare s) := by
  rw [step_eq, h]
  rfl

/-- Settles O8: taking the event changes neither `SEQ_EN` nor `PHASE`. -/
theorem stepRunsThePhaseHeld : Obligations.StepRunsThePhaseHeld := by
  intro s i ha hen hd
  rw [step_of_tick ha]
  exact seqTick_of_decode (by simpa using hen) (by simpa using hd)

/-! ## Agents whose step is not enabled -/

/-- The phase codes of instructions are 0 to 10 (30 R89). -/
theorem phase_le_of_encode {i : Instr} {p : BitVec 4} (h : encode i = .phase p) : p.toNat ≤ 10 := by
  cases i <;> cases h <;> decide

theorem seqTick_stalls {s : State} (h : s.seq.seqEn = false ∨ 11 ≤ s.seq.phase.toNat) : seqTick s = .next s := by
  obtain ⟨-, ht⟩ | ⟨i, hen, -, hi, -⟩ := seqTick_cases s
  · exact ht
  · have hp := phase_le_of_encode hi
    rcases h with h | h
    · cases hen.symm.trans h
    · omega

theorem chEnabled_eq_false {s : State} : chEnabled s = false ↔ s.ch.busy = false ∨ s.seq.outq = [] := by
  cases hb : s.ch.busy <;> simp [chEnabled, hb]

theorem chTransfer_stalls {s : State} (h : s.ch.busy = false ∨ s.seq.outq = []) : chTransfer s = .next s := by
  have hne := chEnabled_eq_false.2 h
  obtain ⟨-, ht⟩ | ⟨he, -⟩ | ⟨he, -⟩ | ⟨v, rest, hb, hq, -⟩ := chTransfer_cases s
  · exact ht
  · cases hne.symm.trans he
  · cases hne.symm.trans he
  · simp [hb, hq] at h

theorem ctlSubPhase_stalls {s : State} (h : s.ctl.fatal = true ∨ s.ctl.state ≠ .finishing) : ctlSubPhase s = s := by
  refine if_neg fun ⟨hf, hs⟩ => ?_
  rcases h with h | h
  · cases hf.symm.trans h
  · exact h hs

/-- Settles O10, agent by agent: the group each agent reads is the same before and after the event is taken. -/
theorem agentsNotEnabledStall : Obligations.AgentsNotEnabledStall := by
  refine fun s => ⟨fun ha h => ?_, fun ha h => ?_, fun ha h => ?_⟩
  · rw [step_of_tick ha]
    exact seqTick_stalls (by simpa using h)
  · rw [step_eq, ha]
    exact chTransfer_stalls (by simpa using h)
  · rw [step_eq, ha]
    exact congrArg Host.Outcome.next (ctlSubPhase_stalls (by simpa using h))

/-! ## Parameters and environment -/

/-- `t` has the parameters and the environment's fields of `s`. -/
def KeepsPlatform (s t : State) : Prop := t.params = s.params ∧ t.env = s.env

theorem keepsPlatform_refl (s : State) : KeepsPlatform s s := ⟨rfl, rfl⟩

theorem onSeq_keepsPlatform (f : Seq → Seq) (s : State) : KeepsPlatform s (onSeq f s) := ⟨rfl, rfl⟩

theorem fatalEntry_keepsPlatform (cause : FaultCause) (w : Word) (s : State) :
    KeepsPlatform s (fatalEntry cause w s) := ⟨rfl, rfl⟩

theorem commandStep_keepsPlatform {w : Word} {perform : State → State} {s : State}
    (h : KeepsPlatform s (perform s)) : KeepsPlatform s (commandStep w perform s) := by
  obtain ⟨-, hc⟩ | ⟨-, -, hc⟩ | ⟨-, -, hc⟩ := commandStep_cases w perform s <;> rw [hc]
  · exact keepsPlatform_refl s
  · exact fatalEntry_keepsPlatform _ w s
  · exact h

/-- Each claim of `INIT` writes the allocator alone, so no way out of the claims touches the platform. -/
theorem initClaims_keepsPlatform (w : Word) (m : Model) (u : Bool) (p b : Nat) (s : State) :
    KeepsPlatform s (initClaims w m u p b s) := by
  obtain ⟨-, hc⟩ | ⟨uid, s1, h1, ⟨-, hc⟩ | ⟨cid, s2, h2, ⟨-, hc⟩ | ⟨s3, h3, hc⟩⟩⟩ :=
    initClaims_cases w m u p b s <;> rw [hc]
  · exact fatalEntry_keepsPlatform _ w s
  · obtain ⟨-, -, rfl⟩ := claimUnit_some h1
    exact ⟨rfl, rfl⟩
  · obtain ⟨-, -, rfl⟩ := claimUnit_some h1
    obtain ⟨-, -, rfl⟩ := claimChannel_some h2
    exact ⟨rfl, rfl⟩
  · obtain ⟨-, -, rfl⟩ := claimUnit_some h1
    obtain ⟨-, -, rfl⟩ := claimChannel_some h2
    obtain ⟨-, rfl⟩ := loadProgram_some h3
    exact ⟨rfl, rfl⟩

theorem performInit_keepsPlatform (w : Word) (m : Model) (u : Bool) (p b : Nat) (s : State) :
    KeepsPlatform s (performInit w m u p b s) := by
  unfold performInit
  split_ifs
  · exact fatalEntry_keepsPlatform _ w s
  · exact fatalEntry_keepsPlatform _ w s
  · exact fatalEntry_keepsPlatform _ w s
  · exact initClaims_keepsPlatform w m u p b s

theorem performDeinit_keepsPlatform (w : Word) (s : State) : KeepsPlatform s (performDeinit w s) := by
  unfold performDeinit
  split_ifs <;> exact ⟨rfl, rfl⟩

theorem performStart_keepsPlatform (w : Word) (s : State) : KeepsPlatform s (performStart w s) := by
  unfold performStart
  split_ifs <;> exact ⟨rfl, rfl⟩

theorem performFinish_keepsPlatform (w : Word) (s : State) : KeepsPlatform s (performFinish w s) := by
  unfold performFinish
  split_ifs <;> exact ⟨rfl, rfl⟩

/-- No instruction reaches the parameters or the environment: a command is its body inside the command step, a phase
writes the sequencer group alone (40 R110). -/
theorem execState_keepsPlatform (i : Instr) (s : State) : KeepsPlatform s (execState i s) := by
  cases i with
  | nop | done => exact keepsPlatform_refl s
  | init m u p b => exact commandStep_keepsPlatform (performInit_keepsPlatform _ m u p b s)
  | deinit => exact commandStep_keepsPlatform (performDeinit_keepsPlatform _ s)
  | start => exact commandStep_keepsPlatform (performStart_keepsPlatform _ s)
  | finish => exact commandStep_keepsPlatform (performFinish_keepsPlatform _ s)
  | decode m => exact commandStep_keepsPlatform ⟨rfl, rfl⟩
  | pullStart | pullThresh | driveLow | waitRelease | waitAckLow | waitAckHigh | waitAckEnd | waitBitHigh
  | measureHigh | pushStall => exact onSeq_keepsPlatform _ s

theorem exec_keepsPlatform {i : Instr} {s t : State} (h : exec i s = .next t) : KeepsPlatform s t := by
  cases (exec_next i s).symm.trans h
  exact execState_keepsPlatform i s

theorem hostWriteCmd_keepsPlatform {w : Word} {s t : State} (h : hostWriteCmd w s = .next t) :
    KeepsPlatform s t := by
  obtain ⟨-, hw⟩ | ⟨-, -, hw⟩ | ⟨i, -, -, hw⟩ := hostWriteCmd_cases w s
  · cases hw.symm.trans h
    exact keepsPlatform_refl s
  · cases hw.symm.trans h
    exact fatalEntry_keepsPlatform _ w s
  · exact exec_keepsPlatform (hw.symm.trans h)

theorem writeReg_keepsPlatform {offset : Nat} {v : Word} {s t : State} (h : writeReg offset v s = .next t) :
    KeepsPlatform s t := by
  obtain ⟨-, hw⟩ | ⟨-, hw⟩ | ⟨-, hw⟩ | ⟨-, -, -, hw⟩ := writeReg_cases offset v s
  · exact hostWriteCmd_keepsPlatform (hw.symm.trans h)
  all_goals
    cases hw.symm.trans h
    exact ⟨rfl, rfl⟩

theorem seqTick_keepsPlatform {s t : State} (h : seqTick s = .next t) : KeepsPlatform s t := by
  obtain ⟨-, ht⟩ | ⟨i, -, -, -, ht⟩ := seqTick_cases s
  · cases ht.symm.trans h
    exact keepsPlatform_refl s
  · exact exec_keepsPlatform (ht.symm.trans h)

theorem chTransfer_keepsPlatform {s t : State} (h : chTransfer s = .next t) : KeepsPlatform s t := by
  obtain ⟨-, hc⟩ | ⟨-, -, hc⟩ | ⟨-, -, -, hc⟩ | ⟨v, rest, -, -, -, -, hc⟩ := chTransfer_cases s <;>
    cases hc.symm.trans h <;> exact ⟨rfl, rfl⟩

theorem ctlSubPhase_keepsPlatform (s : State) : KeepsPlatform s (ctlSubPhase s) := by
  unfold ctlSubPhase ctlWait ctlDisable ctlCheck
  repeat' split
  all_goals exact ⟨rfl, rfl⟩

theorem peerClaimUnit_platform (b u : Nat) (s : State) :
    (peerClaimUnit b u s).params = s.params ∧ (peerClaimUnit b u s).env.clock = s.env.clock := by
  unfold peerClaimUnit
  split_ifs <;> exact ⟨rfl, rfl⟩

theorem peerReleaseUnit_platform (b u : Nat) (s : State) :
    (peerReleaseUnit b u s).params = s.params ∧ (peerReleaseUnit b u s).env.clock = s.env.clock := by
  unfold peerReleaseUnit
  split_ifs <;> exact ⟨rfl, rfl⟩

theorem peerClaimChannel_platform (c : Nat) (s : State) :
    (peerClaimChannel c s).params = s.params ∧ (peerClaimChannel c s).env.clock = s.env.clock := by
  unfold peerClaimChannel
  split_ifs <;> exact ⟨rfl, rfl⟩

theorem peerReleaseChannel_platform (c : Nat) (s : State) :
    (peerReleaseChannel c s).params = s.params ∧ (peerReleaseChannel c s).env.clock = s.env.clock := by
  unfold peerReleaseChannel
  split_ifs <;> exact ⟨rfl, rfl⟩

/-- Past the taking of its event, no agent changes the parameters or the clock. A host read writes `hostData` and the
peers write their holdings, so here the rest of the environment is not kept. -/
theorem act_params_clock {a : Action} {s t : State} (h : act a s = .next t) :
    t.params = s.params ∧ t.env.clock = s.env.clock := by
  have keeps : KeepsPlatform s t → t.params = s.params ∧ t.env.clock = s.env.clock :=
    fun ⟨hp, he⟩ => ⟨hp, congrArg Env.clock he⟩
  cases a with
  | hostWrite width offset v =>
    obtain ⟨-, -, hw⟩ := hostAccess_next h
    exact keeps (writeReg_keepsPlatform hw)
  | hostRead width offset =>
    obtain ⟨-, -, hr⟩ := hostAccess_next h
    cases hr
    exact ⟨rfl, rfl⟩
  | seqTick => exact keeps (seqTick_keepsPlatform h)
  | chStep => exact keeps (chTransfer_keepsPlatform h)
  | ctlStep => cases h; exact keeps (ctlSubPhase_keepsPlatform s)
  | peerClaimUnit b u => cases h; exact peerClaimUnit_platform b u s
  | peerReleaseUnit b u => cases h; exact peerReleaseUnit_platform b u s
  | peerClaimChannel c => cases h; exact peerClaimChannel_platform c s
  | peerReleaseChannel c => cases h; exact peerReleaseChannel_platform c s
  | blockReset => cases h; exact ⟨rfl, rfl⟩
  | platformReset => cases h; exact ⟨rfl, rfl⟩

/-- Settles O59: the clock advances where the event is taken, and the agent's action keeps both. -/
theorem parametersAndClockAreLawful : Obligations.ParametersAndClockAreLawful := by
  intro s t h
  obtain ⟨hp, hc⟩ := act_params_clock ((step_eq s).symm.trans h)
  exact ⟨hp.trans (prepare_params s), hc.trans (prepare_env_clock s)⟩

/-! ## The start pulse -/

theorem core_run_zero (s : State) : Sys2Proof.core.run 0 s = .next s := rfl

theorem core_run_succ {s t : State} (h : step s = .next t) (k : Nat) :
    Sys2Proof.core.run (k + 1) s = Sys2Proof.core.run k t := by
  simp only [Host.Core.run, show Sys2Proof.core.step s = .next t from h]

theorem tickDriveLow_of_eq_one {q : Seq} (h : q.x = 1) :
    tickDriveLow q = { q with x := 0, pinDir := false, phase := 3 } := by
  simp [tickDriveLow, h]

theorem tickDriveLow_of_ne_one {q : Seq} (h : q.x ≠ 1) : tickDriveLow q = { q with x := q.x - 1 } := by
  exact if_neg fun h0 => h (sub_eq_zero.1 h0)

/-- A tick in phase 2 counts the pulse down (40 R114), and the events after it stay to come. -/
theorem step_in_driveLow {s : State} {e : Event} {rest : List Event} (hag : s.env.agenda = e :: rest)
    (he : e.action = .seqTick) (hen : s.seq.seqEn = true) (hph : s.seq.phase = 2) :
    ∃ t, step s = .next t ∧ t.env.agenda = rest ∧ t.seq = tickDriveLow s.seq := by
  have hd : decode (.phase s.seq.phase) = .ok .driveLow := by rw [hph]; rfl
  refine ⟨onSeq tickDriveLow (prepare s), ?_, ?_, ?_⟩
  · exact stepRunsThePhaseHeld s .driveLow (by rw [nextEvent_cons hag, he]) hen hd
  · rw [onSeq_env, prepare_of_agenda_cons hag]
  · rw [onSeq_seq, prepare_seq]

/-- Settles O26, by induction on the ticks: a tick with X = 1 ends the pulse, and any other leaves the state with a
pulse one tick shorter to come. -/
theorem startPulseLastsXTicks : Obligations.StartPulseLastsXTicks := by
  intro s ticks rest hag htick hen hph hpin hx
  induction ticks generalizing s with
  | nil =>
    refine ⟨fun _ => ⟨s, core_run_zero s, hpin, hph, rfl⟩, fun h0 => ?_⟩
    simp only [List.length_nil] at h0
    omega
  | cons e ticks ih =>
    obtain ⟨t, hstep, htag, htseq⟩ := step_in_driveLow hag (htick e (by simp)) hen hph
    simp only [List.length_cons, core_run_succ hstep]
    by_cases hx1 : s.seq.x = 1
    · rw [tickDriveLow_of_eq_one hx1] at htseq
      have hone : s.seq.x.toNat = 1 := by rw [hx1]; rfl
      refine ⟨fun hlt => by omega, fun hlen => ⟨t, ?_, ?_⟩⟩
      · obtain rfl : ticks = [] := List.eq_nil_of_length_eq_zero (by omega)
        exact core_run_zero t
      · simp [htseq]
    · rw [tickDriveLow_of_ne_one hx1] at htseq
      have hxt : t.seq.x.toNat + 1 = s.seq.x.toNat := by
        rw [htseq]
        bv_omega
      have hpos : 1 ≤ t.seq.x.toNat := by bv_omega
      obtain ⟨hdriven, hreleased⟩ := ih t htag (fun e' he' => htick e' (by simp [he'])) (by rw [htseq]; exact hen)
        (by rw [htseq]; exact hph) (by rw [htseq]; exact hpin) hpos
      rw [← hxt]
      simp only [Nat.add_lt_add_iff_right, Nat.add_right_cancel_iff, Nat.add_sub_add_right]
      exact ⟨hdriven, hreleased⟩

end Sys2Proof.Machine
end

section
/-! SUPPORT. What one step of an agent can do (spec/00_scope.md R6): every way a command (spec/42_controller.md R160 to
R166) and an agent's action can end, each with the whole state it leaves, so that a safety theorem is a case analysis
and unfolds no operation again. -/

namespace Sys2Proof.Machine

/-! ## Commands -/

/-- The claims that stand when a later one of `INIT` fails, none of them undone (60 R234). -/
inductive ClaimsMade (s : State) : State → Prop
  | unit (b u : Nat) : ClaimsMade s (holdUnit b u s)
  | unitAndChannel (b u c : Nat) : ClaimsMade s (holdChannel c (holdUnit b u s))

/-- `CommandEffect s i t`: outside the fatal state, the command `i` can take `s` to `t` (42 R160 to R166). -/
inductive CommandEffect (s : State) : Instr → State → Prop
  | nop : CommandEffect s .nop s
  | fault {i : Instr} (cause : FaultCause) : CommandEffect s i (fatalEntry cause (commandWord i) s)
  | initFault {m : Model} {u : Bool} {p b : Nat} {s' : State} (cause : FaultCause) (hstate : s.ctl.state = .uninit)
    (hclaims : ClaimsMade s s') :
    CommandEffect s (.init m u p b) (fatalEntry cause (commandWord (.init m u p b)) s')
  | init {m : Model} {u : Bool} {p b uid cid : Nat} (hstate : s.ctl.state = .uninit) (hblock : b < numBlocks s.params)
    (hunit : uid < unitsPerBlock s.params) (hunitFree : (b, uid) ∉ s.alloc.units)
    (hchan : cid < numChannels s.params) (hchanFree : cid ∉ s.alloc.chans) :
    CommandEffect s (.init m u p b) { s with
      ctl := { s.ctl with
        state := .idle
        config := { model := m, pullUp := u, pin := BitVec.ofNat 5 p, block := BitVec.ofNat 2 b
                    unitId := BitVec.ofNat 4 uid, chanId := BitVec.ofNat 4 cid, progLoaded := true }
        div := sysClkHz s.params / seqClkHz
        startTs := 0
        reading := Reading.reset }
      seq := { seqRestart s.seq with seqEn := false, pull := u }
      ch := Chan.reset
      buf := []
      alloc := { units := (b, uid) :: s.alloc.units, chans := cid :: s.alloc.chans, progs := b :: s.alloc.progs } }
  | deinit (hstate : s.ctl.state = .idle ∨ s.ctl.state = .armed) :
    CommandEffect s .deinit { s with
      ctl := { s.ctl with config := ConfigReg.reset, state := .uninit }
      seq := seqDisable s.seq
      ch := { s.ch with busy := false }
      alloc := {
        units := s.alloc.units.filter
          (fun x => decide (x ≠ (s.ctl.config.block.toNat, s.ctl.config.unitId.toNat)))
        chans := s.alloc.chans.filter (fun x => decide (x ≠ s.ctl.config.chanId.toNat))
        progs := s.alloc.progs.erase s.ctl.config.block.toNat } }
  | start (hstate : s.ctl.state = .idle) :
    CommandEffect s .start { s with
      ctl := { s.ctl with state := .armed, startTs := nowUs s, reading := Reading.reset }
      seq := { seqRestart s.seq with
        seqEn := true
        inq := [startTicks s.ctl.config.model, threshTicks s.params s.ctl.config.model] }
      ch := { busy := true, count := 5, dst := 0 }
      buf := [] }
  | finish (hstate : s.ctl.state = .armed) :
    CommandEffect s .finish { s with ctl := { s.ctl with state := .finishing, finSub := .wait } }
  | decode (m : Model) : CommandEffect s (.decode m) (setReading (frameDecode m s.ctl.decIn) s)

theorem initClaims_effect {m : Model} {u : Bool} {p b : Nat} {s : State} (hs : s.ctl.state = .uninit)
    (hb : b < numBlocks s.params) :
    CommandEffect s (.init m u p b) (initClaims (commandWord (.init m u p b)) m u p b s) := by
  obtain ⟨-, h⟩ | ⟨uid, s1, h1, ⟨-, h⟩ | ⟨cid, s2, h2, ⟨-, h⟩ | ⟨s3, h3, h⟩⟩⟩ :=
    initClaims_cases (commandWord (.init m u p b)) m u p b s <;> rw [h]
  · exact .fault _
  · obtain ⟨-, -, rfl⟩ := claimUnit_some h1
    exact .initFault _ hs (.unit b uid)
  · obtain ⟨-, -, rfl⟩ := claimUnit_some h1
    obtain ⟨-, -, rfl⟩ := claimChannel_some h2
    exact .initFault _ hs (.unitAndChannel b uid cid)
  · obtain ⟨hu, huf, rfl⟩ := claimUnit_some h1
    obtain ⟨hc, hcf, rfl⟩ := claimChannel_some h2
    obtain ⟨-, rfl⟩ := loadProgram_some h3
    exact .init hs hb hu huf hc hcf

theorem performInit_effect (m : Model) (u : Bool) (p b : Nat) (s : State) :
    CommandEffect s (.init m u p b) (performInit (commandWord (.init m u p b)) m u p b s) := by
  unfold performInit
  split_ifs with hs hb hp
  · exact .fault _
  · exact .fault _
  · exact .fault _
  · exact initClaims_effect (not_not.1 hs) (not_le.1 hb)

theorem performDeinit_effect {s : State} (hs : s.ctl.state ≠ .finishing) :
    CommandEffect s .deinit (performDeinit (commandWord .deinit) s) := by
  cases hst : s.ctl.state with
  | uninit => rw [performDeinit, if_pos hst]; exact .fault _
  | idle => rw [performDeinit, if_neg (by simp [hst])]; exact .deinit (.inl hst)
  | armed => rw [performDeinit, if_neg (by simp [hst])]; exact .deinit (.inr hst)
  | finishing => exact absurd hst hs

theorem performStart_effect (s : State) : CommandEffect s .start (performStart (commandWord .start) s) := by
  unfold performStart
  split_ifs with hs
  · exact .fault _
  · exact .start (not_not.1 hs)

theorem performFinish_effect (s : State) : CommandEffect s .finish (performFinish (commandWord .finish) s) := by
  unfold performFinish
  split_ifs with hs
  · exact .fault _
  · exact .finish (not_not.1 hs)

theorem commandStep_effect {i : Instr} {perform : State → State} {s : State} (hf : s.ctl.fatal = false)
    (h : s.ctl.state ≠ .finishing → CommandEffect s i (perform s)) :
    CommandEffect s i (commandStep (commandWord i) perform s) := by
  obtain ⟨hf', -⟩ | ⟨-, -, hc⟩ | ⟨-, hs, hc⟩ := commandStep_cases (commandWord i) perform s
  · cases hf.symm.trans hf'
  · rw [hc]; exact .fault _
  · rw [hc]; exact h hs

/-- Everything a legal command word can do outside the fatal state. -/
theorem execState_effect {w : Word} {i : Instr} {s : State} (hd : decode (.command w) = .ok i)
    (hf : s.ctl.fatal = false) : CommandEffect s i (execState i s) := by
  obtain rfl | ⟨m, u, p, b, rfl⟩ | rfl | rfl | rfl | ⟨m, rfl⟩ := decode_command_cases hd
  · exact .nop
  · exact commandStep_effect hf fun _ => performInit_effect m u p b s
  · exact commandStep_effect hf performDeinit_effect
  · exact commandStep_effect hf fun _ => performStart_effect s
  · exact commandStep_effect hf fun _ => performFinish_effect s
  · exact commandStep_effect hf fun _ => .decode m

/-! ## Agents -/

/-- A phase writes the sequencer group alone (40 R110). -/
theorem execState_of_phase {i : Instr} {p : BitVec 4} (h : encode i = .phase p) (s : State) :
    ∃ f, execState i s = onSeq f s := by
  cases i with
  | nop | init | deinit | start | finish | decode => cases h
  | done => exact ⟨id, rfl⟩
  | pullStart | pullThresh | driveLow | waitRelease | waitAckLow | waitAckHigh | waitAckEnd | waitBitHigh
  | measureHigh | pushStall => exact ⟨_, rfl⟩

/-- `AgentEffect s a t`: the action `a`, performed on `s`, can end in `t`. `s` is the state that already holds the
action's draws (`prepare`). -/
inductive AgentEffect (s : State) : Action → State → Prop
  | stall (a : Action) : AgentEffect s a s
  | illegal {w : Word} (hfatal : s.ctl.fatal = false) (hdecode : ∃ e, decode (.command w) = .error e) :
    AgentEffect s (.hostWrite 32 0x00 w) (fatalEntry .illegalCommand w s)
  | command {w : Word} {i : Instr} {t : State} (hfatal : s.ctl.fatal = false) (hdecode : decode (.command w) = .ok i)
    (heffect : CommandEffect s i t) : AgentEffect s (.hostWrite 32 0x00 w) t
  | decIn0 (v : Word) : AgentEffect s (.hostWrite 32 0x20 v) (writeDecIn0 v s)
  | decIn1 (v : Word) : AgentEffect s (.hostWrite 32 0x24 v) (writeDecIn1 v s)
  | read (offset : Nat) :
    AgentEffect s (.hostRead 32 offset) { s with env := { s.env with hostData := readReg s offset } }
  | tick {i : Instr} {f : Seq → Seq} (hen : s.seq.seqEn = true) (hphase : encode i = .phase s.seq.phase)
    (hexec : execState i s = onSeq f s) : AgentEffect s .seqTick (onSeq f s)
  | transfer {v : Byte} {rest : List Byte} (hbusy : s.ch.busy = true) (houtq : s.seq.outq = v :: rest)
    (hcount : s.ch.count ≠ 0) (hdst : s.ch.dst < bufSize) :
    AgentEffect s .chStep { s with
      seq := { s.seq with outq := rest }
      buf := bufPut s.ch.dst v s.buf
      ch := { busy := decide (s.ch.count - 1 ≠ 0), count := s.ch.count - 1, dst := s.ch.dst + 1 } }
  | waitOver (hfatal : s.ctl.fatal = false) (hstate : s.ctl.state = .finishing) (hsub : s.ctl.finSub = .wait) :
    AgentEffect s .ctlStep { s with ctl := { s.ctl with finSub := .disable } }
  | disable (hfatal : s.ctl.fatal = false) (hstate : s.ctl.state = .finishing) (hsub : s.ctl.finSub = .disable) :
    AgentEffect s .ctlStep { s with ctl := { s.ctl with finSub := .check }, seq := seqDisable s.seq }
  | timeout (hfatal : s.ctl.fatal = false) (hstate : s.ctl.state = .finishing) (hsub : s.ctl.finSub = .check)
    (hbusy : s.ch.busy = true) :
    AgentEffect s .ctlStep { s with
      ctl := { s.ctl with state := .idle, finSub := .wait, reading := { Reading.reset with result := .timeout } }
      ch := { s.ch with busy := false } }
  | decoded (hfatal : s.ctl.fatal = false) (hstate : s.ctl.state = .finishing) (hsub : s.ctl.finSub = .check)
    (hbusy : s.ch.busy = false) :
    AgentEffect s .ctlStep { s with
      ctl := { s.ctl with
        state := .idle, finSub := .wait, reading := frameDecode s.ctl.config.model (bufFrame s) } }
  | peerClaimUnit {b u : Nat} (hfree : (b, u) ∉ s.alloc.units) :
    AgentEffect s (.peerClaimUnit b u) { holdUnit b u s with
      env := { s.env with peerUnits := (b, u) :: s.env.peerUnits } }
  | peerReleaseUnit {b u : Nat} (hheld : (b, u) ∈ s.env.peerUnits) :
    AgentEffect s (.peerReleaseUnit b u) { releaseUnit b u s with
      env := { s.env with peerUnits := s.env.peerUnits.filter (fun x => decide (x ≠ (b, u))) } }
  | peerClaimChannel {c : Nat} (hfree : c ∉ s.alloc.chans) :
    AgentEffect s (.peerClaimChannel c) { holdChannel c s with
      env := { s.env with peerChans := c :: s.env.peerChans } }
  | peerReleaseChannel {c : Nat} (hheld : c ∈ s.env.peerChans) :
    AgentEffect s (.peerReleaseChannel c) { releaseChannel c s with
      env := { s.env with peerChans := s.env.peerChans.filter (fun x => decide (x ≠ c)) } }
  | blockReset : AgentEffect s .blockReset (blockReset s)
  | platformReset : AgentEffect s .platformReset (platformReset s)

theorem execState_of_exec {i : Instr} {s t : State} (h : exec i s = .next t) : execState i s = t :=
  Host.Outcome.next.inj ((exec_next i s).symm.trans h)

theorem hostWriteCmd_effect {w : Word} {s t : State} (h : hostWriteCmd w s = .next t) :
    AgentEffect s (.hostWrite 32 0x00 w) t := by
  obtain ⟨-, hw⟩ | ⟨hf, he, hw⟩ | ⟨i, hf, hd, hw⟩ := hostWriteCmd_cases w s
  · cases hw.symm.trans h
    exact .stall _
  · cases hw.symm.trans h
    exact .illegal hf he
  · cases execState_of_exec (hw.symm.trans h)
    exact .command hf hd (execState_effect hd hf)

theorem writeReg_effect {offset : Nat} {v : Word} {s t : State} (h : writeReg offset v s = .next t) :
    AgentEffect s (.hostWrite 32 offset v) t := by
  obtain ⟨rfl, hw⟩ | ⟨rfl, hw⟩ | ⟨rfl, hw⟩ | ⟨-, -, -, hw⟩ := writeReg_cases offset v s
  · exact hostWriteCmd_effect (hw.symm.trans h)
  · cases hw.symm.trans h
    exact .decIn0 v
  · cases hw.symm.trans h
    exact .decIn1 v
  · cases hw.symm.trans h
    exact .stall _

theorem seqTick_effect {s t : State} (h : seqTick s = .next t) : AgentEffect s .seqTick t := by
  obtain ⟨-, ht⟩ | ⟨i, hen, -, hi, ht⟩ := seqTick_cases s
  · cases ht.symm.trans h
    exact .stall _
  · cases execState_of_exec (ht.symm.trans h)
    obtain ⟨f, hf⟩ := execState_of_phase hi s
    rw [hf]
    exact .tick hen hi hf

theorem chTransfer_effect {s t : State} (h : chTransfer s = .next t) : AgentEffect s .chStep t := by
  obtain ⟨-, hc⟩ | ⟨-, -, hc⟩ | ⟨-, -, -, hc⟩ | ⟨v, rest, hb, hq, hn, hd, hc⟩ := chTransfer_cases s <;>
    cases hc.symm.trans h
  · exact .stall _
  · exact .transfer hb hq hn hd

theorem ctlSubPhase_effect (s : State) : AgentEffect s .ctlStep (ctlSubPhase s) := by
  by_cases hen : s.ctl.fatal = false ∧ s.ctl.state = .finishing
  · obtain ⟨hf, hs⟩ := hen
    rw [ctlSubPhase, if_pos ⟨hf, hs⟩]
    cases hsub : s.ctl.finSub with
    | wait =>
      simp only [ctlWait]
      split_ifs
      · exact .waitOver hf hs hsub
      · exact .stall _
    | disable => exact .disable hf hs hsub
    | check =>
      simp only [ctlCheck]
      split_ifs with hb
      · exact .timeout hf hs hsub hb
      · exact .decoded hf hs hsub (Bool.eq_false_iff.2 hb)
  · rw [ctlSubPhase, if_neg hen]
    exact .stall _

theorem peerClaimUnit_effect (b u : Nat) (s : State) :
    AgentEffect s (.peerClaimUnit b u) (peerClaimUnit b u s) := by
  unfold peerClaimUnit
  split_ifs with h
  · exact .peerClaimUnit (mem_freeUnits.1 h.2.2).2
  · exact .stall _

theorem peerReleaseUnit_effect (b u : Nat) (s : State) :
    AgentEffect s (.peerReleaseUnit b u) (peerReleaseUnit b u s) := by
  unfold peerReleaseUnit
  split_ifs with h
  · exact .peerReleaseUnit h
  · exact .stall _

theorem peerClaimChannel_effect (c : Nat) (s : State) :
    AgentEffect s (.peerClaimChannel c) (peerClaimChannel c s) := by
  unfold peerClaimChannel
  split_ifs with h
  · exact .peerClaimChannel (mem_freeChannels.1 h.2).2
  · exact .stall _

theorem peerReleaseChannel_effect (c : Nat) (s : State) :
    AgentEffect s (.peerReleaseChannel c) (peerReleaseChannel c s) := by
  unfold peerReleaseChannel
  split_ifs with h
  · exact .peerReleaseChannel h
  · exact .stall _

/-- Everything an action can do. -/
theorem act_effect {a : Action} {s t : State} (h : act a s = .next t) : AgentEffect s a t := by
  cases a with
  | hostWrite width offset v =>
    obtain ⟨rfl, -, hw⟩ := hostAccess_next h
    exact writeReg_effect hw
  | hostRead width offset =>
    obtain ⟨rfl, -, hr⟩ := hostAccess_next h
    cases hr
    exact .read offset
  | seqTick => exact seqTick_effect h
  | chStep => exact chTransfer_effect h
  | ctlStep => cases h; exact ctlSubPhase_effect s
  | peerClaimUnit b u => cases h; exact peerClaimUnit_effect b u s
  | peerReleaseUnit b u => cases h; exact peerReleaseUnit_effect b u s
  | peerClaimChannel c => cases h; exact peerClaimChannel_effect c s
  | peerReleaseChannel c => cases h; exact peerReleaseChannel_effect c s
  | blockReset => cases h; exact .blockReset
  | platformReset => cases h; exact .platformReset

/-- Everything a step can do, from the state that holds its draws. -/
theorem step_effect {s t : State} (h : step s = .next t) : AgentEffect (prepare s) (nextEvent s).action t :=
  act_effect h

end Sys2Proof.Machine
end

section
/-! SUPPORT. Safety of the whole block: the fatal state lasts until a reset (spec/60_exceptions.md R235), the pin is
driven by a tick alone (spec/42_controller.md R168), STATE follows its table (R167), and what a reset leaves
(spec/70_reset_and_hazards.md R260, R261). -/

namespace Sys2Proof.Machine

/-! ## The fatal state -/

/-- In the fatal state only the other agents act (60 R236, R237), and none of them writes the fault registers. -/
theorem AgentEffect.fatal_lasts {s t : State} {a : Action} (h : AgentEffect s a t) (hf : s.ctl.fatal = true) :
    a = .blockReset ∨ a = .platformReset ∨
      (t.ctl.fatal = true ∧ t.ctl.faultCause = s.ctl.faultCause ∧ t.ctl.faultInfo = s.ctl.faultInfo) := by
  cases h with
  | blockReset => exact .inl rfl
  | platformReset => exact .inr (.inl rfl)
  | illegal hfatal | command hfatal | waitOver hfatal | disable hfatal | timeout hfatal | decoded hfatal =>
    cases hf.symm.trans hfatal
  | stall | tick | decIn0 | decIn1 | read | transfer | peerClaimUnit | peerReleaseUnit | peerClaimChannel
  | peerReleaseChannel => exact .inr (.inr ⟨hf, rfl, rfl⟩)

/-- Settles O21, action by action. -/
theorem fatalStateLastsUntilReset : Obligations.FatalStateLastsUntilReset := by
  intro s t hf h
  simpa using (step_effect h).fatal_lasts (by simpa using hf)

/-! ## The pin -/

@[simp] theorem tickPullStart_pinDir (q : Seq) : (tickPullStart q).pinDir = q.pinDir := by
  unfold tickPullStart; split <;> rfl

theorem tickDriveLow_pinDir_of_released {q : Seq} (h : q.pinDir = false) : (tickDriveLow q).pinDir = false := by
  simp only [tickDriveLow]
  split_ifs
  · rfl
  · exact h

@[simp] theorem tickWaitLevel_pinDir (level : Bool) (next : BitVec 4) (line : Bool) (q : Seq) :
    (tickWaitLevel level next line q).pinDir = q.pinDir := by
  unfold tickWaitLevel; split_ifs <;> rfl

@[simp] theorem tickWaitBitHigh_pinDir (line : Bool) (q : Seq) : (tickWaitBitHigh line q).pinDir = q.pinDir := by
  unfold tickWaitBitHigh; split_ifs <;> rfl

@[simp] theorem packBit_pinDir (b : Bool) (q : Seq) : (packBit b q).pinDir = q.pinDir := by
  obtain ⟨-, h⟩ | ⟨-, -, h⟩ | ⟨-, -, h⟩ := packBit_cases b q <;> rw [h]

@[simp] theorem tickMeasureHigh_pinDir (line : Bool) (q : Seq) : (tickMeasureHigh line q).pinDir = q.pinDir := by
  unfold tickMeasureHigh
  split_ifs
  · rfl
  · exact packBit_pinDir _ q

@[simp] theorem tickPushStall_pinDir (q : Seq) : (tickPushStall q).pinDir = q.pinDir := by
  unfold tickPushStall; split_ifs <;> rfl

/-- A tick drives a released pin only in phase 1 (40 R113). -/
theorem execState_pinDir_of_phase {i : Instr} {s : State} (hi : encode i = .phase s.seq.phase)
    (hne : s.seq.phase ≠ 1) (hpin : s.seq.pinDir = false) : (execState i s).seq.pinDir = false := by
  cases i with
  | nop | init | deinit | start | finish | decode => cases hi
  | pullThresh => exact absurd (Code.phase.inj hi).symm hne
  | driveLow => exact tickDriveLow_pinDir_of_released hpin
  | done => exact hpin
  | pullStart => exact (tickPullStart_pinDir _).trans hpin
  | waitRelease | waitAckLow | waitAckHigh | waitAckEnd => exact (tickWaitLevel_pinDir ..).trans hpin
  | waitBitHigh => exact (tickWaitBitHigh_pinDir ..).trans hpin
  | measureHigh => exact (tickMeasureHigh_pinDir ..).trans hpin
  | pushStall => exact (tickPushStall_pinDir _).trans hpin

/-- No command drives the pin (42 R168). -/
theorem CommandEffect.pinDir_released {s t : State} {i : Instr} (h : CommandEffect s i t)
    (hpin : s.seq.pinDir = false) : t.seq.pinDir = false := by
  cases h with
  | initFault cause hstate hclaims => cases hclaims <;> exact hpin
  | nop | fault | finish | decode => exact hpin
  | init | deinit | start => rfl

theorem AgentEffect.pin_driven {s t : State} {a : Action} (h : AgentEffect s a t) (hpin : s.seq.pinDir = false)
    (hdriven : t.seq.pinDir = true) : a = .seqTick ∧ s.seq.seqEn = true ∧ s.seq.phase = 1 := by
  cases h with
  | tick hen hphase hexec =>
    refine ⟨rfl, hen, by_contra fun hne => ?_⟩
    cases hdriven.symm.trans (hexec ▸ execState_pinDir_of_phase hphase hne hpin)
  | command _ _ heffect => cases hdriven.symm.trans (heffect.pinDir_released hpin)
  | stall | illegal | decIn0 | decIn1 | read | transfer | waitOver | timeout | decoded | peerClaimUnit
  | peerReleaseUnit | peerClaimChannel | peerReleaseChannel => cases hdriven.symm.trans hpin
  | disable | blockReset | platformReset => cases hdriven

/-- Settles O55: no command and no action but a tick drives a released pin, and among the ticks only phase 1's does. -/
theorem onlyTheSequencerDrivesThePin : Obligations.OnlyTheSequencerDrivesThePin := by
  intro s t h hpin hdriven
  simpa using (step_effect h).pin_driven (by simpa using hpin) hdriven

/-! ## STATE -/

/-- Every way a command changes STATE (42 R167); a fault does not. -/
theorem CommandEffect.state_change {s t : State} {i : Instr} (h : CommandEffect s i t)
    (hne : t.ctl.state ≠ s.ctl.state) : t.ctl.fatal = s.ctl.fatal ∧
      ((s.ctl.state = .uninit ∧ t.ctl.state = .idle ∧ ∃ m u p b, i = .init m u p b) ∨
       (s.ctl.state = .idle ∧ t.ctl.state = .armed ∧ i = .start) ∨
       (s.ctl.state = .armed ∧ t.ctl.state = .finishing ∧ i = .finish) ∨
       ((s.ctl.state = .idle ∨ s.ctl.state = .armed) ∧ t.ctl.state = .uninit ∧ i = .deinit)) := by
  cases h with
  | initFault cause hstate hclaims => cases hclaims <;> exact absurd rfl hne
  | nop | fault | decode => exact absurd rfl hne
  | init hstate => exact ⟨rfl, .inl ⟨hstate, rfl, _, _, _, _, rfl⟩⟩
  | start hstate => exact ⟨rfl, .inr (.inl ⟨hstate, rfl, rfl⟩)⟩
  | finish hstate => exact ⟨rfl, .inr (.inr (.inl ⟨hstate, rfl, rfl⟩))⟩
  | deinit hstate => exact ⟨rfl, .inr (.inr (.inr ⟨hstate, rfl, rfl⟩))⟩

/-- Past the resets, STATE changes only outside the fatal state: at the end of CHECK, or by a legal command. -/
theorem AgentEffect.state_change {s t : State} {a : Action} (h : AgentEffect s a t)
    (hne : t.ctl.state ≠ s.ctl.state) : a = .blockReset ∨ a = .platformReset ∨
      (s.ctl.fatal = false ∧
        ((t.ctl.fatal = false ∧ s.ctl.state = .finishing ∧ t.ctl.state = .idle ∧ a = .ctlStep ∧
            s.ctl.finSub = .check) ∨
          ∃ w i, a = .hostWrite 32 0x00 w ∧ decode (.command w) = .ok i ∧ CommandEffect s i t)) := by
  cases h with
  | blockReset => exact .inl rfl
  | platformReset => exact .inr (.inl rfl)
  | timeout hfatal hstate hsub | decoded hfatal hstate hsub =>
    exact .inr (.inr ⟨hfatal, .inl ⟨hfatal, hstate, rfl, rfl, hsub⟩⟩)
  | command hfatal hdecode heffect => exact .inr (.inr ⟨hfatal, .inr ⟨_, _, rfl, hdecode, heffect⟩⟩)
  | stall | tick | illegal | decIn0 | decIn1 | read | transfer | waitOver | disable | peerClaimUnit | peerReleaseUnit
  | peerClaimChannel | peerReleaseChannel => exact absurd rfl hne

/-- Settles O58: besides the resets only CHECK and the legal commands write STATE, both with FATAL 0. -/
theorem stateChangesFollowTheTable : Obligations.StateChangesFollowTheTable := by
  intro s t h hne
  rw [← prepare_ctl s] at hne ⊢
  obtain ha | ha | ⟨hf, ⟨hft, hcheck⟩ | ⟨w, i, ha, hd, heffect⟩⟩ := (step_effect h).state_change hne
  · exact .inl ha
  · exact .inr (.inl ha)
  · exact .inr (.inr ⟨hf, hft, .inl hcheck⟩)
  · obtain ⟨hft, hrow⟩ := heffect.state_change hne
    exact .inr (.inr ⟨hf, hft.trans hf, .inr ⟨w, i, ha, hd, hrow⟩⟩)

/-! ## Reset -/

/-- Settles O48: the reset writes its values whatever the prepared state is, and keeps that state's allocator. -/
theorem blockResetClearsTheInstance : Obligations.BlockResetClearsTheInstance := by
  intro s ha
  refine ⟨blockReset (prepare s), ?_, rfl, rfl, rfl, fun _ => rfl, prepare_alloc s, rfl, rfl, rfl, rfl⟩
  rw [step_eq, ha]
  rfl

/-- Settles O49, register by register: all but ID read a field that the reset leaves 0. -/
theorem resetRegistersReadZero : Obligations.ResetRegistersReadZero := by
  intro offset
  by_cases hid : offset = 0x40
  · rw [hid]
    rfl
  · rw [if_neg hid]
    unfold readReg
    split
    case h_17 => exact absurd rfl hid
    all_goals rfl

end Sys2Proof.Machine
end

section
/-! SUPPORT. The machine's invariant (spec/10_state.md R44) holds after reset and every step keeps it. The sequencer's
part is read per phase (spec/40_sequencer.md R112 to R123), the other parts per command and per action. -/

namespace Sys2Proof.Machine

/-! ## The sequencer's part -/

/-- What the invariant asks of each phase: the timing words still to come, the pulse, the packing counters and the
pin. -/
def PhaseInv (q : Seq) : Prop :=
  match q.phase.toNat with
  | 0 => q.nBits = 0 ∧ q.pinDir = false ∧ (q.seqEn = true → q.inq.length = 2)
  | 1 => q.nBits = 0 ∧ q.pinDir = false ∧ (q.seqEn = true → q.inq.length = 1)
  | 2 => q.nBits = 0 ∧ q.x ≠ 0
  | 3 | 4 | 5 | 6 => q.nBits = 0 ∧ q.pinDir = false
  | 7 | 8 => q.bitCnt < 8 ∧ q.nBits < 40 ∧ q.pinDir = false
  | 9 => q.bitCnt = 8 ∧ q.nBits = 40 ∧ q.pinDir = false
  | 10 => q.bitCnt = 0 ∧ q.nBits = 40 ∧ q.pinDir = false
  | _ => False

/-- The sequencer's invariant with the channel having moved `dst` bytes. -/
structure PackInv (q : Seq) (dst : Nat) : Prop where
  inqLevel : q.inq.length ≤ queueDepth
  outqLevel : q.outq.length ≤ queueDepth
  pushed : q.nBits = 8 * (dst + q.outq.length) + q.bitCnt
  phase : PhaseInv q

theorem PhaseInv.legal {q : Seq} (h : PhaseInv q) : q.phase.toNat ≤ 10 := by
  by_contra hp
  unfold PhaseInv at h
  split at h <;> omega

/-! The table, row by row. -/

theorem phaseInv_pullStart {q : Seq} (hp : q.phase = 0) :
    PhaseInv q ↔ q.nBits = 0 ∧ q.pinDir = false ∧ (q.seqEn = true → q.inq.length = 2) := by
  simp [PhaseInv, hp]

theorem phaseInv_pullThresh {q : Seq} (hp : q.phase = 1) :
    PhaseInv q ↔ q.nBits = 0 ∧ q.pinDir = false ∧ (q.seqEn = true → q.inq.length = 1) := by
  simp [PhaseInv, hp]

theorem phaseInv_driveLow {q : Seq} (hp : q.phase = 2) : PhaseInv q ↔ q.nBits = 0 ∧ q.x ≠ 0 := by
  simp [PhaseInv, hp]

theorem phaseInv_waiting {q : Seq} (hlo : 3 ≤ q.phase.toNat) (hhi : q.phase.toNat ≤ 6) :
    PhaseInv q ↔ q.nBits = 0 ∧ q.pinDir = false := by
  have hp : q.phase.toNat = 3 ∨ q.phase.toNat = 4 ∨ q.phase.toNat = 5 ∨ q.phase.toNat = 6 := by omega
  rcases hp with hp | hp | hp | hp <;> simp [PhaseInv, hp]

theorem phaseInv_receiving {q : Seq} (hp : q.phase = 7 ∨ q.phase = 8) :
    PhaseInv q ↔ q.bitCnt < 8 ∧ q.nBits < 40 ∧ q.pinDir = false := by
  rcases hp with hp | hp <;> simp [PhaseInv, hp]

theorem phaseInv_pushStall {q : Seq} (hp : q.phase = 9) :
    PhaseInv q ↔ q.bitCnt = 8 ∧ q.nBits = 40 ∧ q.pinDir = false := by
  simp [PhaseInv, hp]

theorem phaseInv_done {q : Seq} (hp : q.phase = 10) :
    PhaseInv q ↔ q.bitCnt = 0 ∧ q.nBits = 40 ∧ q.pinDir = false := by
  simp [PhaseInv, hp]

/-- The legal phases, grouped as the table's rows (40 R89). -/
theorem phase_cases {p : BitVec 4} (h : p.toNat ≤ 10) :
    p = 0 ∨ p = 1 ∨ p = 2 ∨ (3 ≤ p.toNat ∧ p.toNat ≤ 6) ∨ (p = 7 ∨ p = 8) ∨ p = 9 ∨ p = 10 := by
  revert p; decide

theorem PhaseInv.noBits {q : Seq} (h : PhaseInv q) (hle : q.phase.toNat ≤ 6) : q.nBits = 0 := by
  obtain hp | hp | hp | ⟨hlo, hhi⟩ | (hp | hp) | hp | hp := phase_cases h.legal
  · exact ((phaseInv_pullStart hp).1 h).1
  · exact ((phaseInv_pullThresh hp).1 h).1
  · exact ((phaseInv_driveLow hp).1 h).1
  · exact ((phaseInv_waiting hlo hhi).1 h).1
  all_goals simp [hp] at hle

theorem PhaseInv.released {q : Seq} (h : PhaseInv q) (hne : q.phase ≠ 2) : q.pinDir = false := by
  obtain hp | hp | hp | ⟨hlo, hhi⟩ | hp | hp | hp := phase_cases h.legal
  · exact ((phaseInv_pullStart hp).1 h).2.1
  · exact ((phaseInv_pullThresh hp).1 h).2.1
  · exact absurd hp hne
  · exact ((phaseInv_waiting hlo hhi).1 h).2
  · exact ((phaseInv_receiving hp).1 h).2.2
  · exact ((phaseInv_pushStall hp).1 h).2.2
  · exact ((phaseInv_done hp).1 h).2.2

theorem SeqInv.packInv {s : State} (h : SeqInv s) : PackInv s.seq s.ch.dst := by
  refine ⟨h.inqLevel, h.outqLevel, h.pushed, ?_⟩
  have hreleased : s.seq.phase ≠ 2 → s.seq.pinDir = false := fun hne => Bool.eq_false_iff.2 (mt h.driven hne)
  obtain hp | hp | hp | ⟨hlo, hhi⟩ | hp | hp | hp := phase_cases h.legalPhase
  · exact (phaseInv_pullStart hp).2
      ⟨h.beforeBits (by simp [hp]), hreleased (by simp [hp]), fun hen => h.firstWord hen hp⟩
  · exact (phaseInv_pullThresh hp).2
      ⟨h.beforeBits (by simp [hp]), hreleased (by simp [hp]), fun hen => h.secondWord hen hp⟩
  · exact (phaseInv_driveLow hp).2 ⟨h.beforeBits (by simp [hp]), h.pulse hp⟩
  · exact (phaseInv_waiting hlo hhi).2 ⟨h.beforeBits hhi, hreleased fun hp => by simp [hp] at hlo⟩
  · obtain ⟨hcnt, hbits⟩ := h.duringBits hp
    exact (phaseInv_receiving hp).2 ⟨hcnt, hbits, hreleased (by rcases hp with hp | hp <;> simp [hp])⟩
  · obtain ⟨hcnt, hbits⟩ := h.stalled hp
    exact (phaseInv_pushStall hp).2 ⟨hcnt, hbits, hreleased (by simp [hp])⟩
  · obtain ⟨hcnt, hbits⟩ := h.finished hp
    exact (phaseInv_done hp).2 ⟨hcnt, hbits, hreleased (by simp [hp])⟩

theorem PackInv.seqInv {s : State} (h : PackInv s.seq s.ch.dst) : SeqInv s where
  inqLevel := h.inqLevel
  outqLevel := h.outqLevel
  legalPhase := h.phase.legal
  beforeBits := h.phase.noBits
  duringBits hp := by
    obtain ⟨hcnt, hbits, -⟩ := (phaseInv_receiving hp).1 h.phase
    exact ⟨hcnt, hbits⟩
  stalled hp := by
    obtain ⟨hcnt, hbits, -⟩ := (phaseInv_pushStall hp).1 h.phase
    exact ⟨hcnt, hbits⟩
  finished hp := by
    obtain ⟨hcnt, hbits, -⟩ := (phaseInv_done hp).1 h.phase
    exact ⟨hcnt, hbits⟩
  pushed := h.pushed
  pulse hp := ((phaseInv_driveLow hp).1 h.phase).2
  driven hpin := by_contra fun hne => nomatch hpin.symm.trans (h.phase.released hne)
  firstWord hen hp := ((phaseInv_pullStart hp).1 h.phase).2.2 hen
  secondWord hen hp := ((phaseInv_pullThresh hp).1 h.phase).2.2 hen

/-- Before the first bit the packing state is empty, which suits every phase from `WAIT_RELEASE` to `MEASURE_HIGH`. -/
theorem phaseInv_of_no_bits {q : Seq} (p : BitVec 4) (hp : q.phase = p) (hlo : 3 ≤ p.toNat) (hhi : p.toNat ≤ 8)
    (hbits : q.nBits = 0) (hcnt : q.bitCnt = 0) (hpin : q.pinDir = false) : PhaseInv q := by
  subst hp
  by_cases hwait : q.phase.toNat ≤ 6
  · exact (phaseInv_waiting hlo hwait).2 ⟨hbits, hpin⟩
  · have hp : q.phase = 7 ∨ q.phase = 8 := by bv_omega
    exact (phaseInv_receiving hp).2 ⟨hcnt ▸ by decide, hbits ▸ by decide, hpin⟩

theorem PackInv.bitCnt_of_no_bits {q : Seq} {dst : Nat} (h : PackInv q dst) (hbits : q.nBits = 0) : q.bitCnt = 0 := by
  have hpushed := h.pushed
  omega

/-! ### Ticks -/

theorem packInv_tickPullStart {q : Seq} {dst : Nat} (h : PackInv q dst) (hen : q.seqEn = true) (hp : q.phase = 0) :
    PackInv (tickPullStart q) dst := by
  obtain ⟨hin, hout, hpushed, hphase⟩ := h
  obtain ⟨hbits, hpin, hwords⟩ := (phaseInv_pullStart hp).1 hphase
  have hlen := hwords hen
  unfold tickPullStart
  split
  next hq => simp [hq] at hlen
  next v rest hq =>
    have hrest : rest.length = 1 := by simpa [hq] using hlen
    exact ⟨hrest ▸ by decide, hout, hpushed, hbits, hpin, fun _ => hrest⟩

theorem packInv_tickPullThresh {q : Seq} {dst : Nat} (h : PackInv q dst) (hen : q.seqEn = true) (hp : q.phase = 1) :
    PackInv (tickPullThresh q) dst := by
  have hbitCnt := h.bitCnt_of_no_bits
  obtain ⟨hin, hout, hpushed, hphase⟩ := h
  obtain ⟨hbits, hpin, hword⟩ := (phaseInv_pullThresh hp).1 hphase
  have hlen := hword hen
  unfold tickPullThresh
  split
  next hq => simp [hq] at hlen
  next v rest hq =>
    have hrest : rest.length ≤ queueDepth := by
      rw [hq] at hin
      exact Nat.le_of_succ_le hin
    split_ifs with hx
    · exact ⟨hrest, hout, hpushed, phaseInv_of_no_bits 3 rfl (by decide) (by decide) hbits (hbitCnt hbits) hpin⟩
    · exact ⟨hrest, hout, hpushed, hbits, hx⟩

theorem packInv_tickDriveLow {q : Seq} {dst : Nat} (h : PackInv q dst) (hp : q.phase = 2) :
    PackInv (tickDriveLow q) dst := by
  have hbitCnt := h.bitCnt_of_no_bits
  obtain ⟨hin, hout, hpushed, hphase⟩ := h
  obtain ⟨hbits, -⟩ := (phaseInv_driveLow hp).1 hphase
  by_cases hx : q.x = 1
  · rw [tickDriveLow_of_eq_one hx]
    exact ⟨hin, hout, hpushed, phaseInv_of_no_bits 3 rfl (by decide) (by decide) hbits (hbitCnt hbits) rfl⟩
  · rw [tickDriveLow_of_ne_one hx]
    have hphase' := (phaseInv_driveLow (q := { q with x := q.x - 1 }) hp).2 ⟨hbits, sub_ne_zero.2 hx⟩
    exact ⟨hin, hout, hpushed, hphase'⟩

/-- The four phases that wait for a level before the first bit (40 R115 to R118). -/
theorem packInv_tickWaitLevel {q : Seq} {dst : Nat} {p next : BitVec 4} (h : PackInv q dst) (hp : q.phase = p)
    (hlo : 3 ≤ p.toNat) (hhi : p.toNat ≤ 6) (hnlo : 3 ≤ next.toNat) (hnhi : next.toNat ≤ 8) (level line : Bool) :
    PackInv (tickWaitLevel level next line q) dst := by
  subst hp
  unfold tickWaitLevel
  split_ifs
  · have hbitCnt := h.bitCnt_of_no_bits
    obtain ⟨hin, hout, hpushed, hphase⟩ := h
    obtain ⟨hbits, hpin⟩ := (phaseInv_waiting hlo hhi).1 hphase
    exact ⟨hin, hout, hpushed, phaseInv_of_no_bits next rfl hnlo hnhi hbits (hbitCnt hbits) hpin⟩
  · exact h

theorem packInv_tickWaitBitHigh {q : Seq} {dst : Nat} (h : PackInv q dst) (hp : q.phase = 7) (line : Bool) :
    PackInv (tickWaitBitHigh line q) dst := by
  obtain ⟨hin, hout, hpushed, hphase⟩ := h
  have hbits := (phaseInv_receiving (.inl hp)).1 hphase
  unfold tickWaitBitHigh
  split_ifs
  · exact ⟨hin, hout, hpushed, hbits⟩
  · exact ⟨hin, hout, hpushed, hphase⟩

/-- After a push the frame goes on, or is complete at its 40th bit (40 R126). -/
theorem phaseInv_afterPush {q : Seq} (hphase : q.phase = afterPush q.nBits) (hcnt : q.bitCnt = 0)
    (hbits : q.nBits ≤ 40) (hpin : q.pinDir = false) : PhaseInv q := by
  unfold afterPush at hphase
  split_ifs at hphase with h40
  · exact (phaseInv_done hphase).2 ⟨hcnt, h40, hpin⟩
  · exact (phaseInv_receiving (.inl hphase)).2 ⟨hcnt ▸ by decide, Nat.lt_of_le_of_ne hbits h40, hpin⟩

theorem packInv_packBit {q : Seq} {dst : Nat} (h : PackInv q dst) (hp : q.phase = 8) (b : Bool) :
    PackInv (packBit b q) dst := by
  obtain ⟨hin, hout, hpushed, hphase⟩ := h
  obtain ⟨hcnt, hbits, hpin⟩ := (phaseInv_receiving (.inr hp)).1 hphase
  obtain ⟨hlt, hb⟩ | ⟨hge, hfull, hb⟩ | ⟨hge, hroom, hb⟩ := packBit_cases b q <;> rw [hb]
  · refine ⟨hin, hout, ?_, hlt, ?_, hpin⟩
    · show q.nBits + 1 = 8 * (dst + q.outq.length) + (q.bitCnt + 1)
      omega
    · show q.nBits + 1 < 40
      omega
  · have hfour : 4 ≤ q.outq.length := hfull
    refine ⟨hin, hout, ?_, rfl, ?_, hpin⟩
    · show q.nBits + 1 = 8 * (dst + q.outq.length) + 8
      omega
    · show q.nBits + 1 = 40
      omega
  · refine ⟨hin, ?_, ?_, phaseInv_afterPush rfl rfl hbits hpin⟩
    · simpa using hroom
    · show q.nBits + 1 = 8 * (dst + (q.outq ++ [shiftIn q.isr b]).length) + 0
      rw [List.length_append, List.length_singleton]
      omega

theorem packInv_tickMeasureHigh {q : Seq} {dst : Nat} (h : PackInv q dst) (hp : q.phase = 8) (line : Bool) :
    PackInv (tickMeasureHigh line q) dst := by
  unfold tickMeasureHigh
  split_ifs
  · exact ⟨h.inqLevel, h.outqLevel, h.pushed, h.phase⟩
  · exact packInv_packBit h hp _

theorem packInv_tickPushStall {q : Seq} {dst : Nat} (h : PackInv q dst) (hp : q.phase = 9) :
    PackInv (tickPushStall q) dst := by
  unfold tickPushStall
  split_ifs with hfull
  · exact h
  · obtain ⟨hin, hout, hpushed, hphase⟩ := h
    obtain ⟨hcnt, hbits, hpin⟩ := (phaseInv_pushStall hp).1 hphase
    have hroom : q.outq.length < queueDepth := by simpa [queueFull] using hfull
    refine ⟨hin, ?_, ?_, phaseInv_afterPush rfl rfl hbits.le hpin⟩
    · simpa [pushByte, queuePush] using hroom
    · simp only [pushByte, queuePush, List.length_append, List.length_singleton]
      omega

/-- Every enabled tick keeps the sequencer's invariant. -/
theorem seqInv_tick {i : Instr} {s : State} (h : SeqInv s) (hen : s.seq.seqEn = true)
    (hi : encode i = .phase s.seq.phase) : SeqInv (execState i s) := by
  have hpack := h.packInv
  have hphase : ∀ p : BitVec 4, encode i = .phase p → s.seq.phase = p := fun p hp => Code.phase.inj (hi.symm.trans hp)
  refine PackInv.seqInv ?_
  cases i with
  | nop | init | deinit | start | finish | decode => cases hi
  | pullStart => exact packInv_tickPullStart hpack hen (hphase 0 rfl)
  | pullThresh => exact packInv_tickPullThresh hpack hen (hphase 1 rfl)
  | driveLow => exact packInv_tickDriveLow hpack (hphase 2 rfl)
  | waitRelease =>
    exact packInv_tickWaitLevel hpack (hphase 3 rfl) (by decide) (by decide) (by decide) (by decide) true _
  | waitAckLow =>
    exact packInv_tickWaitLevel hpack (hphase 4 rfl) (by decide) (by decide) (by decide) (by decide) false _
  | waitAckHigh =>
    exact packInv_tickWaitLevel hpack (hphase 5 rfl) (by decide) (by decide) (by decide) (by decide) true _
  | waitAckEnd =>
    exact packInv_tickWaitLevel hpack (hphase 6 rfl) (by decide) (by decide) (by decide) (by decide) false _
  | waitBitHigh => exact packInv_tickWaitBitHigh hpack (hphase 7 rfl) _
  | measureHigh => exact packInv_tickMeasureHigh hpack (hphase 8 rfl) _
  | pushStall => exact packInv_tickPushStall hpack (hphase 9 rfl)
  | done => exact hpack

/-! ## The environment, the reading and the reset -/

/-- Of the environment the invariant reads the peers' holdings alone. -/
theorem stateInv_setEnv {s : State} (h : StateInv s) {e : Env} (hunits : e.peerUnits = s.env.peerUnits)
    (hchans : e.peerChans = s.env.peerChans) : StateInv { s with env := e } where
  ctl := { h.ctl with }
  seq := { h.seq with }
  chan := { h.chan with }
  alloc := {
    peerUnits := hunits ▸ h.alloc.peerUnits
    peerChans := hchans ▸ h.alloc.peerChans
    ownUnit := hunits ▸ h.alloc.ownUnit
    ownChan := hchans ▸ h.alloc.ownChan }
  buf := h.buf

theorem prepare_eq (s : State) : prepare s = { s with env := (prepare s).env } := by
  simp only [prepare, latchDraws, takeEvent]
  split <;> rfl

theorem stateInv_prepare {s : State} (h : StateInv s) : StateInv (prepare s) := by
  rw [prepare_eq]
  exact stateInv_setEnv h (prepare_env_peerUnits s) (prepare_env_peerChans s)

/-- A bad checksum leaves the four values at 0 (43 R200). -/
theorem frameDecode_noResult {m : Model} {r : Frame} (h : (frameDecode m r).result ≠ .ok) :
    (frameDecode m r).hum = 0 ∧ (frameDecode m r).temp = 0 ∧ (frameDecode m r).tneg = false ∧
      (frameDecode m r).tclamp = false := by
  unfold frameDecode at h ⊢
  split_ifs with hck
  · simp [hck] at h
  · exact ⟨rfl, rfl, rfl, rfl⟩

theorem ctlInv_blockReset (s : State) : CtlInv (blockReset s) :=
  ⟨fun _ => rfl, fun _ => ⟨rfl, rfl⟩, fun _ => ⟨rfl, rfl, rfl, rfl⟩, fun _ => ⟨rfl, rfl, rfl⟩, nofun, fun _ => rfl,
    fun h => absurd rfl h⟩

theorem seqInv_blockReset (s : State) : SeqInv (blockReset s) :=
  PackInv.seqInv ⟨Nat.zero_le _, Nat.zero_le _, rfl, rfl, rfl, nofun⟩

theorem chanInv_blockReset (s : State) : ChanInv (blockReset s) := ⟨Nat.zero_le _, nofun, nofun⟩

/-- A block's reset keeps the allocator and the peers' holdings, and holds nothing itself (70 R260). -/
theorem allocInv_blockReset {s : State} (hunits : ∀ p ∈ s.env.peerUnits, p ∈ s.alloc.units)
    (hchans : ∀ c ∈ s.env.peerChans, c ∈ s.alloc.chans) : AllocInv (blockReset s) :=
  ⟨hunits, hchans, fun h => absurd rfl h, fun h => absurd rfl h⟩

/-! ## The controller's part -/

/-- A command resets the reading, decodes it, or leaves it; and what leaves UNINIT or IDLE leaves `FIN_SUB` at WAIT. -/
theorem CommandEffect.ctlInv {s t : State} {i : Instr} (heffect : CommandEffect s i t) (h : CtlInv s) : CtlInv t := by
  cases heffect with
  | nop => exact h
  | fault => exact { h with noFault := nofun }
  | initFault _ _ hclaims => cases hclaims <;> exact { h with noFault := nofun }
  | init hstate =>
    exact { h with
      finSub := fun _ => h.finSub (by simp [hstate])
      noResult := fun _ => ⟨rfl, rfl, rfl, rfl⟩
      quiet := fun _ => ⟨rfl, rfl, rfl⟩
      stopped := fun _ => ⟨rfl, rfl⟩
      unconfigured := nofun
      configured := fun _ => rfl }
  | deinit hstate =>
    exact { h with
      finSub := fun _ => h.finSub (by rcases hstate with hs | hs <;> simp [hs])
      quiet := fun _ => ⟨rfl, rfl, rfl⟩
      stopped := fun _ => ⟨rfl, rfl⟩
      unconfigured := fun _ => rfl
      configured := fun hs => absurd rfl hs }
  | start hstate =>
    have hfin := h.finSub (by simp [hstate])
    exact { h with
      finSub := fun _ => hfin
      noResult := fun _ => ⟨rfl, rfl, rfl, rfl⟩
      quiet := nofun
      stopped := fun hs => nomatch hfin.symm.trans hs
      unconfigured := nofun
      configured := fun _ => h.configured (by simp [hstate]) }
  | finish hstate =>
    exact { h with
      finSub := fun _ => rfl
      quiet := nofun
      stopped := nofun
      unconfigured := nofun
      configured := fun _ => h.configured (by simp [hstate]) }
  | decode m => exact { h with noResult := frameDecode_noResult }

/-- The end of CHECK: DISABLE has stopped the sequencer, and with the channel idle the controller is back in IDLE. -/
theorem ctlInv_check {s : State} {r : Reading} {c : Chan} (h : CtlInv s) (hstate : s.ctl.state = .finishing)
    (hsub : s.ctl.finSub = .check) (hbusy : c.busy = false)
    (hr : r.result ≠ .ok → r.hum = 0 ∧ r.temp = 0 ∧ r.tneg = false ∧ r.tclamp = false) :
    CtlInv { s with ctl := { s.ctl with state := .idle, finSub := .wait, reading := r }, ch := c } := by
  obtain ⟨hen, hpin⟩ := h.stopped hsub
  exact { h with
    finSub := fun _ => rfl
    noResult := hr
    quiet := fun _ => ⟨hen, hbusy, hpin⟩
    stopped := nofun
    unconfigured := nofun
    configured := fun _ => h.configured (by simp [hstate]) }

/-- A tick or a transfer happens only while the sequencer or the channel runs, so the controller is not quiet. -/
theorem AgentEffect.ctlInv {s t : State} {a : Action} (heffect : AgentEffect s a t) (h : CtlInv s) : CtlInv t := by
  cases heffect with
  | stall => exact h
  | illegal => exact { h with noFault := nofun }
  | command _ _ hcommand => exact hcommand.ctlInv h
  | tick hen =>
    exact { h with
      quiet := fun hs => nomatch hen.symm.trans (h.quiet hs).1
      stopped := fun hs => nomatch hen.symm.trans (h.stopped hs).1 }
  | transfer hbusy => exact { h with quiet := fun hs => nomatch hbusy.symm.trans (h.quiet hs).2.1 }
  | waitOver _ hstate => exact { h with finSub := fun hs => absurd hstate hs, stopped := nofun }
  | disable _ hstate =>
    exact { h with
      finSub := fun hs => absurd hstate hs
      quiet := fun hs => ⟨rfl, (h.quiet hs).2.1, rfl⟩
      stopped := fun _ => ⟨rfl, rfl⟩ }
  | timeout _ hstate hsub => exact ctlInv_check h hstate hsub rfl fun _ => ⟨rfl, rfl, rfl, rfl⟩
  | decoded _ hstate hsub hbusy => exact ctlInv_check h hstate hsub hbusy frameDecode_noResult
  | blockReset => exact ctlInv_blockReset s
  | platformReset => exact { ctlInv_blockReset s with }
  | decIn0 | decIn1 | read | peerClaimUnit | peerReleaseUnit | peerClaimChannel | peerReleaseChannel =>
    exact { h with }

/-! ## The sequencer's part, past its ticks -/

/-- Stopping the sequencer asks nothing new of it (40 R128). -/
theorem seqInv_seqDisable {s : State} (h : SeqInv s) : SeqInv (onSeq seqDisable s) :=
  { h with driven := nofun, firstWord := nofun, secondWord := nofun }

/-- `INIT` and `START` restart the sequencer and the channel's count with it; `START` enables it with its two words. -/
theorem CommandEffect.seqInv {s t : State} {i : Instr} (heffect : CommandEffect s i t) (h : SeqInv s) : SeqInv t := by
  cases heffect with
  | nop => exact h
  | fault | finish | decode => exact { h with }
  | initFault _ _ hclaims => cases hclaims <;> exact { h with }
  | init => exact PackInv.seqInv ⟨Nat.zero_le _, Nat.zero_le _, rfl, rfl, rfl, nofun⟩
  | deinit => exact { seqInv_seqDisable h with }
  | start => exact PackInv.seqInv ⟨by simp [queueDepth], Nat.zero_le _, rfl, rfl, rfl, fun _ => rfl⟩

theorem AgentEffect.seqInv {s t : State} {a : Action} (heffect : AgentEffect s a t) (h : SeqInv s) : SeqInv t := by
  cases heffect with
  | stall => exact h
  | command _ _ hcommand => exact hcommand.seqInv h
  | tick hen hphase hexec => exact hexec ▸ seqInv_tick h hen hphase
  | @transfer v rest hbusy houtq =>
    have hlevel := h.outqLevel
    have hpushed := h.pushed
    rw [houtq, List.length_cons] at hlevel hpushed
    exact { h with
      outqLevel := Nat.le_of_succ_le hlevel
      pushed := by
        show s.seq.nBits = 8 * (s.ch.dst + 1 + rest.length) + s.seq.bitCnt
        omega }
  | disable => exact { seqInv_seqDisable h with }
  | blockReset => exact seqInv_blockReset s
  | platformReset => exact { seqInv_blockReset s with }
  | illegal | decIn0 | decIn1 | read | waitOver | timeout | decoded | peerClaimUnit | peerReleaseUnit
  | peerClaimChannel | peerReleaseChannel => exact { h with }

/-! ## The channel's part -/

theorem CommandEffect.chanInv {s t : State} {i : Instr} (heffect : CommandEffect s i t) (h : ChanInv s) :
    ChanInv t := by
  cases heffect with
  | nop => exact h
  | fault | decode => exact { h with }
  | initFault _ _ hclaims => cases hclaims <;> exact { h with }
  | init => exact ⟨Nat.zero_le _, nofun, nofun⟩
  | deinit => exact ⟨h.total, nofun, nofun⟩
  | start => exact ⟨Nat.le_refl 5, fun _ => rfl, fun _ => ⟨rfl, Nat.le_add_left 1 4⟩⟩
  | finish hstate => exact { h with measuring := fun _ => h.measuring (.inl hstate) }

/-- A transfer takes one from the count and adds one to the address, and ends the run at count 0 (41 R143). -/
theorem AgentEffect.chanInv {s t : State} {a : Action} (heffect : AgentEffect s a t) (h : ChanInv s) :
    ChanInv t := by
  cases heffect with
  | stall => exact h
  | command _ _ hcommand => exact hcommand.chanInv h
  | transfer hbusy _ hcount =>
    have hsum : s.ch.dst + 1 + (s.ch.count - 1) = 5 := by
      have := (h.running hbusy).1
      omega
    exact ⟨hsum.le, fun _ => hsum, fun hb => ⟨hsum, Nat.one_le_iff_ne_zero.2 (of_decide_eq_true hb)⟩⟩
  | timeout => exact ⟨h.total, nofun, nofun⟩
  | decoded => exact ⟨h.total, nofun, h.running⟩
  | blockReset => exact chanInv_blockReset s
  | platformReset => exact { chanInv_blockReset s with }
  | tick | illegal | decIn0 | decIn1 | read | waitOver | disable | peerClaimUnit | peerReleaseUnit | peerClaimChannel
  | peerReleaseChannel => exact { h with }

/-! ## The allocator's part -/

theorem allocInv_holdUnit {s : State} (h : AllocInv s) (b u : Nat) : AllocInv (holdUnit b u s) :=
  { h with
    peerUnits := fun p hp => .tail _ (h.peerUnits p hp)
    ownUnit := fun hs => ⟨.tail _ (h.ownUnit hs).1, (h.ownUnit hs).2⟩ }

theorem allocInv_holdChannel {s : State} (h : AllocInv s) (c : Nat) : AllocInv (holdChannel c s) :=
  { h with
    peerChans := fun c' hc => .tail _ (h.peerChans c' hc)
    ownChan := fun hs => ⟨.tail _ (h.ownChan hs).1, (h.ownChan hs).2⟩ }

theorem toNat_ofNat_of_lt {n w : Nat} (h : n < 2 ^ w) : (BitVec.ofNat w n).toNat = n :=
  (BitVec.toNat_ofNat n w).trans (Nat.mod_eq_of_lt h)

/-- `INIT` claims what was free, so no peer holds it; `DEINIT` releases what no peer holds. -/
theorem CommandEffect.allocInv {s t : State} {i : Instr} (heffect : CommandEffect s i t) (h : AllocInv s) :
    AllocInv t := by
  cases heffect with
  | nop => exact h
  | fault | decode => exact { h with }
  | initFault _ _ hclaims =>
    cases hclaims with
    | unit b u => exact { allocInv_holdUnit h b u with }
    | unitAndChannel b u c => exact { allocInv_holdChannel (allocInv_holdUnit h b u) c with }
  | @init m u p b uid cid hstate hblock hunit hunitFree hchan hchanFree =>
    have hb : (BitVec.ofNat 2 b).toNat = b := toNat_ofNat_of_lt (hblock.trans_le (numBlocks_le s.params))
    have hu : (BitVec.ofNat 4 uid).toNat = uid := toNat_ofNat_of_lt (hunit.trans_le (unitsPerBlock_le s.params))
    have hc : (BitVec.ofNat 4 cid).toNat = cid := toNat_ofNat_of_lt (hchan.trans_le (numChannels_le s.params))
    refine ⟨fun p hp => .tail _ (h.peerUnits p hp), fun c hp => .tail _ (h.peerChans c hp), ?_, ?_⟩
    · simp only [hb, hu]
      exact fun _ => ⟨.head _, fun hp => hunitFree (h.peerUnits _ hp)⟩
    · simp only [hc]
      exact fun _ => ⟨.head _, fun hp => hchanFree (h.peerChans _ hp)⟩
  | deinit hstate =>
    have hconf : s.ctl.state ≠ .uninit := by rcases hstate with hs | hs <;> simp [hs]
    refine ⟨fun p hp => ?_, fun c hc => ?_, fun hs => absurd rfl hs, fun hs => absurd rfl hs⟩
    · refine List.mem_filter.2 ⟨h.peerUnits p hp, decide_eq_true ?_⟩
      rintro rfl
      exact (h.ownUnit hconf).2 hp
    · refine List.mem_filter.2 ⟨h.peerChans c hc, decide_eq_true ?_⟩
      rintro rfl
      exact (h.ownChan hconf).2 hc
  | start hstate | finish hstate =>
    have hconf : s.ctl.state ≠ .uninit := by simp [hstate]
    exact { h with ownUnit := fun _ => h.ownUnit hconf, ownChan := fun _ => h.ownChan hconf }

/-- A peer claims what is free and releases what it holds, and this block's own unit and channel are neither. -/
theorem AgentEffect.allocInv {s t : State} {a : Action} (heffect : AgentEffect s a t) (h : AllocInv s) :
    AllocInv t := by
  cases heffect with
  | stall => exact h
  | command _ _ hcommand => exact hcommand.allocInv h
  | timeout _ hstate | decoded _ hstate =>
    have hconf : s.ctl.state ≠ .uninit := by simp [hstate]
    exact { h with ownUnit := fun _ => h.ownUnit hconf, ownChan := fun _ => h.ownChan hconf }
  | peerClaimUnit hfree =>
    refine { h with peerUnits := fun p hp => ?_, ownUnit := fun hs => ?_ }
    · exact List.mem_cons.2 ((List.mem_cons.1 hp).imp_right (h.peerUnits p))
    · obtain ⟨hclaimed, hown⟩ := h.ownUnit hs
      exact ⟨.tail _ hclaimed, List.not_mem_cons_of_ne_of_not_mem (fun he => hfree (he ▸ hclaimed)) hown⟩
  | peerClaimChannel hfree =>
    refine { h with peerChans := fun c hc => ?_, ownChan := fun hs => ?_ }
    · exact List.mem_cons.2 ((List.mem_cons.1 hc).imp_right (h.peerChans c))
    · obtain ⟨hclaimed, hown⟩ := h.ownChan hs
      exact ⟨.tail _ hclaimed, List.not_mem_cons_of_ne_of_not_mem (fun he => hfree (he ▸ hclaimed)) hown⟩
  | peerReleaseUnit hheld =>
    refine { h with peerUnits := fun p hp => ?_, ownUnit := fun hs => ?_ }
    · obtain ⟨hpeer, hne⟩ := List.mem_filter.1 hp
      exact List.mem_filter.2 ⟨h.peerUnits p hpeer, hne⟩
    · obtain ⟨hclaimed, hown⟩ := h.ownUnit hs
      refine ⟨List.mem_filter.2 ⟨hclaimed, decide_eq_true fun he => hown (he ▸ hheld)⟩, fun hp => ?_⟩
      exact hown (List.mem_filter.1 hp).1
  | peerReleaseChannel hheld =>
    refine { h with peerChans := fun c hc => ?_, ownChan := fun hs => ?_ }
    · obtain ⟨hpeer, hne⟩ := List.mem_filter.1 hc
      exact List.mem_filter.2 ⟨h.peerChans c hpeer, hne⟩
    · obtain ⟨hclaimed, hown⟩ := h.ownChan hs
      refine ⟨List.mem_filter.2 ⟨hclaimed, decide_eq_true fun he => hown (he ▸ hheld)⟩, fun hc => ?_⟩
      exact hown (List.mem_filter.1 hc).1
  | blockReset => exact allocInv_blockReset h.peerUnits h.peerChans
  | platformReset => exact ⟨nofun, nofun, fun hs => absurd rfl hs, fun hs => absurd rfl hs⟩
  | tick | illegal | decIn0 | decIn1 | read | transfer | waitOver | disable => exact { h with }

/-! ## The buffer's part -/

theorem CommandEffect.bufWf {s t : State} {i : Instr} (heffect : CommandEffect s i t) (h : Memory.wf s.buf = true) :
    Memory.wf t.buf = true := by
  cases heffect with
  | initFault _ _ hclaims => cases hclaims <;> exact h
  | init | start => rfl
  | nop | fault | deinit | finish | decode => exact h

theorem AgentEffect.bufWf {s t : State} {a : Action} (heffect : AgentEffect s a t) (h : Memory.wf s.buf = true) :
    Memory.wf t.buf = true := by
  cases heffect with
  | command _ _ hcommand => exact hcommand.bufWf h
  | @transfer v _ _ _ _ hdst => exact bufPut_wfFrom h v (Nat.zero_le _) hdst
  | blockReset | platformReset => rfl
  | stall | tick | illegal | decIn0 | decIn1 | read | waitOver | disable | timeout | decoded | peerClaimUnit
  | peerReleaseUnit | peerClaimChannel | peerReleaseChannel => exact h

/-! ## The whole invariant -/

theorem AgentEffect.stateInv {s t : State} {a : Action} (heffect : AgentEffect s a t) (h : StateInv s) :
    StateInv t where
  ctl := heffect.ctlInv h.ctl
  seq := heffect.seqInv h.seq
  chan := heffect.chanInv h.chan
  alloc := heffect.allocInv h.alloc
  buf := heffect.bufWf h.buf

/-- Settles O51: taking the event keeps the invariant, and so does every way its action can end. -/
theorem everyStepKeepsTheInvariant : Obligations.EveryStepKeepsTheInvariant :=
  fun _ _ h hstep => (step_effect hstep).stateInv (stateInv_prepare h)

/-- Settles O50: the reset state is what a block's reset leaves of itself, and no peer holds anything in it. -/
theorem resetMeetsTheInvariant : Obligations.ResetMeetsTheInvariant where
  ctl := ctlInv_blockReset State.reset
  seq := seqInv_blockReset State.reset
  chan := chanInv_blockReset State.reset
  alloc := allocInv_blockReset (s := State.reset) (fun _ hp => absurd hp List.not_mem_nil)
    (fun _ hc => absurd hc List.not_mem_nil)
  buf := rfl

end Sys2Proof.Machine
end

section
/-! SUPPORT. The host register window (spec/20_memory.md R64 to R70, spec/30_encoding.md R90 to R103): which accesses
have a step, that a read only hands its word to the host, that a write reaches its own register alone, and what each
register shows. -/

namespace Sys2Proof.Machine

/-! ## Accesses -/

theorem hostAccess_aligned {width offset : Nat} (hwidth : width = 32) (halign : offset % 4 = 0)
    (access : State → Host.Outcome State Fault Refusal) (s : State) :
    hostAccess width offset access s = access s := by
  simp [hostAccess, hwidth, halign]

theorem hostAccess_refused {width offset : Nat} (h : width ≠ 32 ∨ offset % 4 ≠ 0)
    (access : State → Host.Outcome State Fault Refusal) (s : State) :
    ∃ r, hostAccess width offset access s = .refused r := by
  by_cases hwidth : width ≠ 32
  · exact ⟨.accessWidth width, if_pos hwidth⟩
  · exact ⟨.accessAlignment offset, (if_neg hwidth).trans (if_pos (h.resolve_left hwidth))⟩

/-- The action is a host access that is not a 32-bit one at a multiple of 4 (20 R70). -/
def BadAccess (a : Action) : Prop :=
  ∃ width offset v, (width ≠ 32 ∨ offset % 4 ≠ 0) ∧ (a = .hostWrite width offset v ∨ a = .hostRead width offset)

theorem BadAccess.act_refused {a : Action} (ha : BadAccess a) (s : State) : ∃ r, act a s = .refused r := by
  obtain ⟨width, offset, v, hbad, rfl | rfl⟩ := ha <;> exact hostAccess_refused hbad _ s

/-- Settles O47: both kinds of access go through the one check. -/
theorem otherAccessesAreRefused : Obligations.OtherAccessesAreRefused :=
  fun s width offset v hbad ha => BadAccess.act_refused ⟨width, offset, v, hbad, ha⟩ (prepare s)

theorem step_of_aligned_write {s : State} {offset : Nat} {v : Word} (halign : offset % 4 = 0)
    (ha : (nextEvent s).action = .hostWrite 32 offset v) : step s = writeReg offset v (prepare s) := by
  rw [step_eq, ha]
  exact hostAccess_aligned rfl halign _ _

theorem step_of_aligned_read {s : State} {offset : Nat} (halign : offset % 4 = 0)
    (ha : (nextEvent s).action = .hostRead 32 offset) : step s = hostReadReg offset (prepare s) := by
  rw [step_eq, ha]
  exact hostAccess_aligned rfl halign _ _

/-! ## Reads -/

/-- No register shows the model's own fields. -/
theorem readReg_setEnv (s : State) (e : Env) (offset : Nat) : readReg { s with env := e } offset = readReg s offset :=
  rfl

@[simp] theorem readReg_prepare (s : State) (offset : Nat) : readReg (prepare s) offset = readReg s offset := by
  rw [prepare_eq, readReg_setEnv]

/-- Settles O45: the word handed over is the register's before the event is taken. -/
theorem hostReadsHaveNoSideEffect : Obligations.HostReadsHaveNoSideEffect := by
  intro s offset halign ha
  rw [step_of_aligned_read halign ha, hostReadReg, readReg_prepare]

/-! ## Writes -/

/-- A value in the low bits with every bit above it reserved. -/
theorem toNat_zero_append {n w : Nat} (x : BitVec w) : (0#n ++ x).toNat = x.toNat := by
  simp

/-- The four lanes of a word make it again (20 R64). -/
theorem lanes_lane (v : Word) : lanes (lane 0 v) (lane 1 v) (lane 2 v) (lane 3 v) = v := by
  apply BitVec.eq_of_toNat_eq
  simp only [lanes, lane, toNat_append_add, BitVec.extractLsb'_toNat, Nat.shiftRight_eq_div_pow]
  have := v.isLt
  omega

theorem readReg_decIn0_write (v : Word) (s : State) : readReg (writeDecIn0 v s) 0x20 = v := lanes_lane v

theorem readReg_decIn1_write (v : Word) (s : State) : (readReg (writeDecIn1 v s) 0x24).toNat = v.toNat % 256 := by
  refine (toNat_zero_append (lane 0 v)).trans ?_
  simp [lane]

/-- Settles O46, register by register. -/
theorem writesReachOnlyTheirRegister : Obligations.WritesReachOnlyTheirRegister := by
  intro s offset v halign ha
  rw [step_of_aligned_write halign ha, ← prepare_ctl s, ← readReg_prepare s]
  refine ⟨?_, ?_, fun h0 h20 h24 => ?_⟩
  · rintro rfl
    exact ⟨_, rfl, readReg_decIn0_write v _, rfl, rfl⟩
  · rintro rfl
    exact ⟨_, rfl, readReg_decIn1_write v _, rfl, rfl⟩
  · obtain ⟨h, -⟩ | ⟨h, -⟩ | ⟨h, -⟩ | ⟨-, -, -, hw⟩ := writeReg_cases offset v (prepare s)
    · exact absurd h h0
    · exact absurd h h20
    · exact absurd h h24
    · exact hw

/-! ## What the registers show -/

theorem lanes_toNat (b0 b1 b2 b3 : Byte) :
    (lanes b0 b1 b2 b3).toNat = b0.toNat + 256 * b1.toNat + 65536 * b2.toNat + 16777216 * b3.toNat := by
  simp only [lanes, toNat_append_add]
  omega

theorem configReg_toNat (s : State) : (configReg s).toNat = (modelCode s.ctl.config.model).toNat +
    4 * s.ctl.config.pullUp.toNat + 256 * s.ctl.config.pin.toNat + 8192 * s.ctl.config.block.toNat +
    65536 * s.ctl.config.unitId.toNat + 16777216 * s.ctl.config.chanId.toNat +
    2147483648 * s.ctl.config.progLoaded.toNat := by
  simp only [configReg, toNat_append_add, BitVec.toNat_ofBool, BitVec.toNat_ofNat]
  omega

theorem tempReg_toNat (s : State) : (tempReg s).toNat = s.ctl.reading.temp.toNat +
    65536 * s.ctl.reading.tneg.toNat + 131072 * s.ctl.reading.tclamp.toNat := by
  simp only [tempReg, toNat_append_add, BitVec.toNat_ofBool, BitVec.toNat_ofNat]
  omega

/-- Settles O43, register by register: a packing of fields is the sum of them at their places. -/
theorem registersShowTheirFields : Obligations.RegistersShowTheirFields := by
  refine fun s => ⟨rfl, ?_, rfl, lanes_toNat .., toNat_zero_append _, toNat_zero_append _, tempReg_toNat s,
    lanes_toNat .., toNat_zero_append _, rfl⟩
  refine (configReg_toNat s).trans ?_
  cases s.ctl.config.model <;> rfl

end Sys2Proof.Machine
end

section
/-! SUPPORT. Which steps end the run (spec/20_memory.md R61, R70, spec/41_transfer_channel.md R143): in states of the
invariant none faults, and only a narrow or unaligned host access is refused. -/

namespace Sys2Proof.Machine

theorem hostWriteCmd_next (w : Word) (s : State) : ∃ t, hostWriteCmd w s = .next t := by
  obtain ⟨-, h⟩ | ⟨-, -, h⟩ | ⟨i, -, -, h⟩ := hostWriteCmd_cases w s
  · exact ⟨_, h⟩
  · exact ⟨_, h⟩
  · exact ⟨_, h.trans (exec_next i s)⟩

theorem writeReg_next (offset : Nat) (v : Word) (s : State) : ∃ t, writeReg offset v s = .next t := by
  obtain ⟨-, h⟩ | ⟨-, h⟩ | ⟨-, h⟩ | ⟨-, -, -, h⟩ := writeReg_cases offset v s
  · rw [h]
    exact hostWriteCmd_next v s
  all_goals exact ⟨_, h⟩

theorem seqTick_next (s : State) : ∃ t, seqTick s = .next t := by
  obtain ⟨-, h⟩ | ⟨i, -, -, -, h⟩ := seqTick_cases s
  · exact ⟨_, h⟩
  · exact ⟨_, h.trans (exec_next i s)⟩

/-- A busy channel has a transfer to make and an address of BUF to make it to (41 R143). -/
theorem ChanInv.chTransfer_next {s : State} (h : ChanInv s) : ∃ t, chTransfer s = .next t := by
  obtain ⟨-, hc⟩ | ⟨hen, hcount, -⟩ | ⟨hen, -, hdst, -⟩ | ⟨v, rest, -, -, -, -, hc⟩ := chTransfer_cases s
  · exact ⟨_, hc⟩
  · obtain ⟨hbusy, -⟩ := (Bool.and_eq_true ..).mp hen
    have hone := (h.running hbusy).2
    omega
  · obtain ⟨hbusy, -⟩ := (Bool.and_eq_true ..).mp hen
    obtain ⟨hsum, hone⟩ := h.running hbusy
    have hfive : 5 ≤ s.ch.dst := hdst
    omega
  · exact ⟨_, hc⟩

theorem aligned_of_not_badAccess {a : Action} {width offset : Nat} {v : Word} (ha : ¬ BadAccess a)
    (haccess : a = .hostWrite width offset v ∨ a = .hostRead width offset) : width = 32 ∧ offset % 4 = 0 :=
  by_contra fun hbad => ha ⟨width, offset, v, not_and_or.1 hbad, haccess⟩

/-- Every action but a bad access has a next state. -/
theorem ChanInv.act_next {a : Action} {s : State} (h : ChanInv s) (ha : ¬ BadAccess a) : ∃ t, act a s = .next t := by
  cases a with
  | hostWrite width offset v =>
    obtain ⟨hwidth, halign⟩ := aligned_of_not_badAccess ha (.inl rfl)
    rw [act, hostAccess_aligned hwidth halign]
    exact writeReg_next offset v s
  | hostRead width offset =>
    obtain ⟨hwidth, halign⟩ := aligned_of_not_badAccess (v := 0) ha (.inr rfl)
    rw [act, hostAccess_aligned hwidth halign]
    exact ⟨_, rfl⟩
  | seqTick => exact seqTick_next s
  | chStep => exact h.chTransfer_next
  | ctlStep | peerClaimUnit | peerReleaseUnit | peerClaimChannel | peerReleaseChannel | blockReset | platformReset =>
    exact ⟨_, rfl⟩

/-- Settles O52: a bad access is refused, and every other action has a next state. -/
theorem invariantStatesNeverFault : Obligations.InvariantStatesNeverFault := by
  intro s hinv
  rw [step_eq]
  by_cases ha : BadAccess (nextEvent s).action
  · obtain ⟨r, hr⟩ := ha.act_refused (prepare s)
    exact ⟨fun f hf => (nomatch hr.symm.trans hf), fun _ _ => ha⟩
  · obtain ⟨t, ht⟩ := (stateInv_prepare hinv).chan.act_next ha
    exact ⟨fun f hf => (nomatch ht.symm.trans hf), fun r hr => nomatch ht.symm.trans hr⟩

end Sys2Proof.Machine
end

section
/-! SUPPORT. The packing of wire bits into bytes (spec/20_memory.md R63, spec/40_sequencer.md R125): what one shifted
bit does, where each bit of a byte comes from, and what one more bit does to the bytes packed so far. -/

namespace Sys2Proof.Machine

/-! ## One byte -/

theorem shiftIn_eq_shiftConcat (isr : Byte) (b : Bool) : shiftIn isr b = isr.shiftConcat b := by
  refine BitVec.eq_of_getLsbD_eq fun i hi => ?_
  have hi' : i - 1 < 8 := by omega
  rw [BitVec.getLsbD_shiftConcat]
  cases b <;> by_cases h0 : i = 0 <;> simp [shiftIn, hi, hi', h0, BitVec.getLsbD_eq_getElem]

theorem shiftIn_toNat (isr : Byte) (b : Bool) : (shiftIn isr b).toNat = (2 * isr.toNat + b.toNat) % 256 := by
  rw [shiftIn_eq_shiftConcat, BitVec.toNat_shiftConcat, Nat.shiftLeft_eq, pow_one, mul_comm]

theorem packByte_append (bits : List Bool) (b : Bool) : packByte (bits ++ [b]) = shiftIn (packByte bits) b :=
  List.foldl_concat ..

/-- Settles O31: eight shifts of a byte that starts at 0 lose nothing over its top. -/
theorem eightBitsPackMostSignificantFirst : Obligations.EightBitsPackMostSignificantFirst := by
  intro b0 b1 b2 b3 b4 b5 b6 b7
  simp only [packByte, List.foldl_cons, List.foldl_nil, shiftIn_toNat]
  have h0 := b0.toNat_le
  have h1 := b1.toNat_le
  have h2 := b2.toNat_le
  have h3 := b3.toNat_le
  have h4 := b4.toNat_le
  have h5 := b5.toNat_le
  have h6 := b6.toNat_le
  have h7 := b7.toNat_le
  have hzero : (0 : Byte).toNat = 0 := rfl
  omega

/-- The last bit packed is bit 0, and each bit before it is one place higher than the bit after it. -/
theorem getElem?_eq_packByte_bit {bits : List Bool} (hlen : bits.length ≤ 8) {i : Nat} (hi : i < bits.length) :
    bits[i]? = some ((packByte bits).getLsbD (bits.length - 1 - i)) := by
  induction bits using List.reverseRecOn with
  | nil => cases hi
  | append_singleton bits b ih =>
    rw [packByte_append, shiftIn_eq_shiftConcat, BitVec.getLsbD_shiftConcat]
    simp only [List.length_append, List.length_singleton] at hlen hi ⊢
    by_cases hlast : i = bits.length
    · subst hlast
      simp
    · have hi' : i < bits.length := by omega
      have hplace : bits.length + 1 - 1 - i = bits.length - 1 - i + 1 := by omega
      have hlt : bits.length - 1 - i + 1 < 8 := by omega
      rw [List.getElem?_append_left hi', ih (by omega) hi', hplace]
      simp [hlt]

/-! ## The bytes of a list of bits -/

theorem packBits_of_length_lt {bits : List Bool} (h : bits.length < 8) : packBits bits = ([], bits) := by
  unfold packBits
  split
  · simp only [List.length_cons] at h
    omega
  · rfl

theorem packBits_byte_append {byte : List Bool} (h : byte.length = 8) (rest : List Bool) :
    packBits (byte ++ rest) = (packByte byte :: (packBits rest).1, (packBits rest).2) := by
  match byte, h with
  | [_, _, _, _, _, _, _, _], _ => rfl

/-- The recursion of `packBits`, a byte of bits at a time. -/
theorem bits_induction {P : List Bool → Prop} (short : ∀ bits, bits.length < 8 → P bits)
    (byte : ∀ byte rest, byte.length = 8 → P rest → P (byte ++ rest)) (bits : List Bool) : P bits := by
  fun_induction packBits bits with
  | case1 b0 b1 b2 b3 b4 b5 b6 b7 rest r ih => exact byte [b0, b1, b2, b3, b4, b5, b6, b7] rest rfl ih
  | case2 bits hne =>
    refine short bits (not_le.1 fun h => ?_)
    match bits, h with
    | b0 :: b1 :: b2 :: b3 :: b4 :: b5 :: b6 :: b7 :: rest, _ => exact hne b0 b1 b2 b3 b4 b5 b6 b7 rest rfl

/-- Each byte holds eight bits, and the rest is short of one. -/
theorem packBits_length (bits : List Bool) :
    (packBits bits).2.length < 8 ∧ bits.length = 8 * (packBits bits).1.length + (packBits bits).2.length := by
  induction bits using bits_induction with
  | short bits h => simpa [packBits_of_length_lt h] using h
  | byte byte rest h ih =>
    obtain ⟨hrest, hlen⟩ := ih
    simp only [packBits_byte_append h, List.length_append, List.length_cons]
    omega

/-- One bit more: it joins the rest, and the eighth bit of the rest completes a byte. -/
theorem packBits_append_bit (bits : List Bool) (b : Bool) : packBits (bits ++ [b]) =
    if (packBits bits).2.length = 7 then ((packBits bits).1 ++ [packByte ((packBits bits).2 ++ [b])], [])
    else ((packBits bits).1, (packBits bits).2 ++ [b]) := by
  induction bits using bits_induction with
  | short bits h =>
    rw [packBits_of_length_lt h]
    split_ifs with h7
    · have hbyte := packBits_byte_append (byte := bits ++ [b]) (by simpa using h7) []
      simpa [packBits_of_length_lt] using hbyte
    · have hlt : (bits ++ [b]).length < 8 := by
        simp only [List.length_append, List.length_singleton] at h7 ⊢
        omega
      simp [packBits_of_length_lt hlt]
  | byte byte rest h ih =>
    rw [List.append_assoc, packBits_byte_append h, packBits_byte_append h, ih]
    split_ifs <;> rfl

/-- Bit `i` of byte `j`, counted from the most significant, is wire bit `8 * j + i` (40 R130). -/
theorem getElem?_eq_packBits_bit {bits : List Bool} {j i : Nat} {v : Byte} (hj : (packBits bits).1[j]? = some v)
    (hi : i < 8) : bits[8 * j + i]? = some (v.getLsbD (7 - i)) := by
  induction bits using bits_induction generalizing j with
  | short bits h => simp [packBits_of_length_lt h] at hj
  | byte byte rest h ih =>
    rw [packBits_byte_append h] at hj
    cases j with
    | zero =>
      obtain rfl : packByte byte = v := by simpa using hj
      rw [List.getElem?_append_left (by omega), Nat.mul_zero, Nat.zero_add, getElem?_eq_packByte_bit h.le (by omega), h]
    | succ j =>
      rw [List.getElem?_append_right (by omega), h, show 8 * (j + 1) + i - 8 = 8 * j + i by omega]
      exact ih hj

end Sys2Proof.Machine
end

section
/-! SUPPORT. The way of a wire bit to the buffer (spec/40_sequencer.md R126, R127, R130, spec/41_transfer_channel.md
R143) under every interleaving: what each tick, transfer, command and action does to the bits captured so far; and when
BUF changes (spec/20_memory.md R71). -/

namespace Sys2Proof.Machine

/-! ## The packing state -/

/-- `Captured` for the sequencer `q` and the bytes already moved out of it. -/
def SeqCaptured (q : Seq) (moved : List Byte) (bits : List Bool) : Prop :=
  bits.length = q.nBits ∧ moved ++ q.outq ++ (if q.bitCnt = 8 then [q.isr] else []) = (packBits bits).1 ∧
    (q.bitCnt < 8 → q.isr = packByte (packBits bits).2)

theorem captured_iff (s : State) (bits : List Bool) :
    Captured s bits ↔ SeqCaptured s.seq (bufPrefix s s.ch.dst) bits := Iff.rfl

/-- The part of the sequencer that holds captured bits: OUTQ, ISR, BITCNT and NBITS. -/
def packing (q : Seq) : List Byte × Byte × Nat × Nat := (q.outq, q.isr, q.bitCnt, q.nBits)

theorem seqCaptured_of_packing_eq {q q' : Seq} {moved : List Byte} {bits : List Bool} (hq : packing q' = packing q)
    (h : SeqCaptured q moved bits) : SeqCaptured q' moved bits := by
  obtain ⟨hout, hisr, hcnt, hbits⟩ : q'.outq = q.outq ∧ q'.isr = q.isr ∧ q'.bitCnt = q.bitCnt ∧ q'.nBits = q.nBits := by
    simpa [packing] using hq
  unfold SeqCaptured at h ⊢
  rwa [hout, hisr, hcnt, hbits]

theorem packing_tickPullStart (q : Seq) : packing (tickPullStart q) = packing q := by
  unfold tickPullStart; split <;> rfl

theorem packing_tickPullThresh (q : Seq) : packing (tickPullThresh q) = packing q := by
  unfold tickPullThresh
  split
  · rfl
  · split_ifs <;> rfl

theorem packing_tickDriveLow (q : Seq) : packing (tickDriveLow q) = packing q := by
  simp only [tickDriveLow]; split_ifs <;> rfl

theorem packing_tickWaitLevel (level : Bool) (next : BitVec 4) (line : Bool) (q : Seq) :
    packing (tickWaitLevel level next line q) = packing q := by
  unfold tickWaitLevel; split_ifs <;> rfl

theorem packing_tickWaitBitHigh (line : Bool) (q : Seq) : packing (tickWaitBitHigh line q) = packing q := by
  unfold tickWaitBitHigh; split_ifs <;> rfl

/-! ## Ticks -/

/-- Between bytes, ISR packs as many bits as `BITCNT` says. -/
theorem packBits_rest_length {bits : List Bool} {n k : Nat} (hbits : bits.length = 8 * k + n) (hn : n < 8) :
    (packBits bits).2.length = n := by
  obtain ⟨hlt, hlen⟩ := packBits_length bits
  omega

/-- A falling edge captures its bit, pushed or held back with its byte where it is the eighth. -/
theorem seqCaptured_packBit {q : Seq} {dst : Nat} {moved : List Byte} {bits : List Bool} (hinv : PackInv q dst)
    (hcnt : q.bitCnt < 8) (h : SeqCaptured q moved bits) (b : Bool) :
    SeqCaptured (packBit b q) moved (bits ++ [b]) := by
  obtain ⟨hlen, hbytes, hisr⟩ := h
  have hrest : (packBits bits).2.length = q.bitCnt := packBits_rest_length (hlen.trans hinv.pushed) hcnt
  have hbyte : shiftIn q.isr b = packByte ((packBits bits).2 ++ [b]) := by rw [packByte_append, hisr hcnt]
  rw [if_neg hcnt.ne, List.append_nil] at hbytes
  have hpack := packBits_append_bit bits b
  rw [hrest, ← hbytes, ← hbyte] at hpack
  have hlen' : (bits ++ [b]).length = q.nBits + 1 := by rw [List.length_append, hlen, List.length_singleton]
  obtain ⟨hlt, hb⟩ | ⟨hge, -, hb⟩ | ⟨hge, -, hb⟩ := packBit_cases b q
  · rw [if_neg (by omega)] at hpack
    rw [SeqCaptured, hpack, hb]
    exact ⟨hlen', by simp [hlt.ne], fun _ => hbyte⟩
  · rw [if_pos (by omega)] at hpack
    rw [SeqCaptured, hpack, hb]
    exact ⟨hlen', by simp, fun h8 => absurd h8 (Nat.lt_irrefl 8)⟩
  · rw [if_pos (by omega)] at hpack
    rw [SeqCaptured, hpack, hb]
    exact ⟨hlen', by simp, fun _ => rfl⟩

/-- The byte held back in ISR moves to OUTQ as it is (40 R121, 90 C9). -/
theorem seqCaptured_tickPushStall {q : Seq} {dst : Nat} {moved : List Byte} {bits : List Bool}
    (hinv : PackInv q dst) (hp : q.phase = 9) (h : SeqCaptured q moved bits) :
    SeqCaptured (tickPushStall q) moved bits := by
  unfold tickPushStall
  split_ifs
  · exact h
  · obtain ⟨hlen, hbytes, -⟩ := h
    obtain ⟨hcnt, h40, -⟩ := (phaseInv_pushStall hp).1 hinv.phase
    have hrest : (packBits bits).2 = [] :=
      List.eq_nil_of_length_eq_zero (packBits_rest_length (k := 5) (hlen.trans h40) (by decide))
    rw [if_pos hcnt] at hbytes
    refine ⟨hlen, ?_, fun _ => ?_⟩
    · simpa [pushByte, queuePush] using hbytes
    · rw [hrest]
      rfl

theorem seqCaptured_tickMeasureHigh {q : Seq} {dst : Nat} {moved : List Byte} {bits : List Bool}
    (hinv : PackInv q dst) (hcnt : q.bitCnt < 8) (h : SeqCaptured q moved bits) (line : Bool) :
    SeqCaptured (tickMeasureHigh line q) moved bits ∨
      SeqCaptured (tickMeasureHigh line q) moved (bits ++ [classify q.w q.y]) ∧ line = false := by
  cases line with
  | true => exact .inl h
  | false => exact .inr ⟨seqCaptured_packBit hinv hcnt h _, rfl⟩

/-- A tick keeps the captured bits, or is the falling edge of one bit more. -/
theorem captured_tick {i : Instr} {s : State} {bits : List Bool} (hinv : SeqInv s)
    (hi : encode i = .phase s.seq.phase) (h : Captured s bits) :
    Captured (execState i s) bits ∨
      Captured (execState i s) (bits ++ [classify s.seq.w s.seq.y]) ∧ s.seq.phase = 8 ∧ lineSample s = false := by
  have hphase : ∀ p : BitVec 4, encode i = .phase p → s.seq.phase = p := fun p hp => Code.phase.inj (hi.symm.trans hp)
  rw [captured_iff] at h
  cases i with
  | nop | init | deinit | start | finish | decode => cases hi
  | pullStart => exact .inl (seqCaptured_of_packing_eq (packing_tickPullStart _) h)
  | pullThresh => exact .inl (seqCaptured_of_packing_eq (packing_tickPullThresh _) h)
  | driveLow => exact .inl (seqCaptured_of_packing_eq (packing_tickDriveLow _) h)
  | waitRelease | waitAckLow | waitAckHigh | waitAckEnd =>
    exact .inl (seqCaptured_of_packing_eq (packing_tickWaitLevel ..) h)
  | waitBitHigh => exact .inl (seqCaptured_of_packing_eq (packing_tickWaitBitHigh ..) h)
  | measureHigh =>
    have hp := hphase 8 rfl
    have hcnt := (hinv.duringBits (.inr hp)).1
    obtain hkept | ⟨hbit, hline⟩ := seqCaptured_tickMeasureHigh hinv.packInv hcnt h (lineSample s)
    · exact .inl hkept
    · exact .inr ⟨hbit, hp, hline⟩
  | pushStall => exact .inl (seqCaptured_tickPushStall hinv.packInv (hphase 9 rfl) h)
  | done => exact .inl h

/-! ## Transfers and restarts -/

/-- A transfer puts the oldest byte of OUTQ behind the bytes already moved. -/
theorem bufPrefix_transfer {s t : State} {v : Byte} (hbuf : Memory.wf s.buf = true) {n : Nat}
    (ht : t.buf = bufPut n v s.buf) : bufPrefix t (n + 1) = bufPrefix s n ++ [v] := by
  unfold bufPrefix
  rw [List.range_succ, List.map_append, List.map_singleton, ht, bufGet_bufPut_same hbuf]
  congr 1
  refine List.map_congr_left fun a ha => ?_
  exact bufGet_bufPut_other s.buf v (List.mem_range.1 ha).ne

/-- What a restart leaves of the captured bits (40 R127). -/
def Restarted (t : State) : Prop := Captured t [] ∧ t.seq.phase = 0 ∧ t.ch.dst = 0 ∧ t.seq.outq = []

theorem restarted_of_empty {t : State} (hpacking : packing t.seq = ([], 0, 0, 0)) (hphase : t.seq.phase = 0)
    (hdst : t.ch.dst = 0) : Restarted t := by
  obtain ⟨houtq, hisr, hcnt, hbits⟩ :
      t.seq.outq = [] ∧ t.seq.isr = 0 ∧ t.seq.bitCnt = 0 ∧ t.seq.nBits = 0 := by
    simpa [packing] using hpacking
  refine ⟨⟨hbits.symm, ?_, fun _ => hisr⟩, hphase, hdst, houtq⟩
  simp [bytesSeen, bufPrefix, hdst, houtq, hcnt, packBits]

/-- The actions that can restart the sequencer: a reset, or a write of INIT or START to `CMD`. -/
def Restarts (a : Action) : Prop :=
  a = .blockReset ∨ a = .platformReset ∨
    ∃ w, a = .hostWrite 32 0x00 w ∧
      (decode (.command w) = .ok .start ∨ ∃ m u p b, decode (.command w) = .ok (.init m u p b))

theorem CommandEffect.captured {s t : State} {i : Instr} (heffect : CommandEffect s i t) {bits : List Bool}
    (h : Captured s bits) :
    Captured t bits ∨ Restarted t ∧ (i = .start ∨ ∃ m u p b, i = .init m u p b) := by
  cases heffect with
  | nop | fault | deinit | finish | decode => exact .inl h
  | initFault _ _ hclaims => cases hclaims <;> exact .inl h
  | init => exact .inr ⟨restarted_of_empty rfl rfl rfl, .inr ⟨_, _, _, _, rfl⟩⟩
  | start => exact .inr ⟨restarted_of_empty rfl rfl rfl, .inl rfl⟩

theorem AgentEffect.captured {s t : State} {a : Action} (heffect : AgentEffect s a t) (hinv : StateInv s)
    {bits : List Bool} (h : Captured s bits) :
    Captured t bits ∨
      (Captured t (bits ++ [classify s.seq.w s.seq.y]) ∧ a = .seqTick ∧ s.seq.seqEn = true ∧ s.seq.phase = 8 ∧
        lineSample s = false) ∨
      (Restarted t ∧ Restarts a) := by
  cases heffect with
  | stall | illegal | decIn0 | decIn1 | read | waitOver | disable | timeout | decoded | peerClaimUnit
  | peerReleaseUnit | peerClaimChannel | peerReleaseChannel => exact .inl h
  | tick hen hphase hexec =>
    rw [← hexec]
    obtain hkept | ⟨hbit, hp, hline⟩ := captured_tick hinv.seq hphase h
    · exact .inl hkept
    · exact .inr (.inl ⟨hbit, rfl, hen, hp, hline⟩)
  | transfer _ houtq =>
    obtain ⟨hlen, hbytes, hisr⟩ := h
    refine .inl ⟨hlen, ?_, hisr⟩
    rw [← hbytes]
    simp only [bytesSeen, houtq]
    rw [bufPrefix_transfer hinv.buf rfl, List.append_assoc _ [_]]
    rfl
  | command _ hdecode hcommand =>
    obtain hkept | ⟨ht, rfl | ⟨m, u, p, b, rfl⟩⟩ := hcommand.captured h
    · exact .inl hkept
    · exact .inr (.inr ⟨ht, .inr (.inr ⟨_, rfl, .inl hdecode⟩)⟩)
    · exact .inr (.inr ⟨ht, .inr (.inr ⟨_, rfl, .inr ⟨m, u, p, b, hdecode⟩⟩)⟩)
  | blockReset => exact .inr (.inr ⟨restarted_of_empty rfl rfl rfl, .inl rfl⟩)
  | platformReset => exact .inr (.inr ⟨restarted_of_empty rfl rfl rfl, .inr (.inl rfl)⟩)

theorem captured_prepare {s : State} {bits : List Bool} (h : Captured s bits) : Captured (prepare s) bits := by
  rw [prepare_eq]
  exact h

/-- Settles O53, action by action: only the falling edge adds a bit, and only a restart drops any. -/
theorem wireBitsReachTheBufferInOrder : Obligations.WireBitsReachTheBufferInOrder := by
  intro s t bits hinv hcap hstep
  obtain h | ⟨h, hbit⟩ | ⟨⟨h, hrestarted⟩, ha⟩ :=
    (step_effect hstep).captured (stateInv_prepare hinv) (captured_prepare hcap)
  · exact ⟨bits, h, .inl rfl⟩
  · rw [prepare_seq] at h hbit
    exact ⟨_, h, .inr (.inl ⟨rfl, hbit⟩)⟩
  · obtain ⟨hphase, hdst, houtq⟩ := hrestarted
    exact ⟨[], h, .inr (.inr ⟨rfl, hphase, hdst, houtq, ha⟩)⟩

/-! ## The whole frame -/

theorem SeqInv.nBits_le {s : State} (h : SeqInv s) : s.seq.nBits ≤ 40 := by
  by_cases hle : s.seq.phase.toNat ≤ 6
  · exact (h.beforeBits hle).trans_le (by decide)
  · have hlegal := h.legalPhase
    have hp : (s.seq.phase = 7 ∨ s.seq.phase = 8) ∨ s.seq.phase = 9 ∨ s.seq.phase = 10 := by bv_omega
    obtain hp | hp | hp := hp
    · exact (h.duringBits hp).2.le
    · exact (h.stalled hp).2.le
    · exact (h.finished hp).2.le

/-- Five bytes moved are the whole frame of 40 bits: nothing is queued and no bit waits in ISR (10 R44). -/
theorem frame_complete {s : State} (h : SeqInv s) (hdst : s.ch.dst = 5) : s.seq.outq = [] ∧ s.seq.bitCnt = 0 := by
  have hpushed := h.pushed
  have hle := h.nBits_le
  exact ⟨List.eq_nil_of_length_eq_zero (by omega), by omega⟩

/-- Settles O54: with five bytes moved, the packed bytes are those of BUF. -/
theorem wireBitPlaceInTheBuffer : Obligations.WireBitPlaceInTheBuffer := by
  rintro s bits hinv ⟨hlen, hbytes, -⟩ hdst k hk
  obtain ⟨houtq, hcnt⟩ := frame_complete hinv.seq hdst
  have hframe : (packBits bits).1 = bufPrefix s 5 := by
    rw [← hbytes, bytesSeen, hdst, houtq, hcnt]
    simp
  have hbyte : (packBits bits).1[k / 8]? = some (bufGet s.buf (k / 8)) := by
    rw [hframe, bufPrefix, List.getElem?_map, List.getElem?_range (by omega)]
    rfl
  have hbit := getElem?_eq_packBits_bit hbyte (Nat.mod_lt k (by decide))
  rwa [Nat.div_add_mod] at hbit

/-! ## When BUF changes -/

theorem CommandEffect.buf_kept {s t : State} {i : Instr} (heffect : CommandEffect s i t) (hstart : i ≠ .start)
    (hinit : ∀ m u p b, i ≠ .init m u p b) : t.buf = s.buf := by
  cases heffect with
  | nop | fault | deinit | finish | decode => rfl
  | init | initFault => exact absurd rfl (hinit _ _ _ _)
  | start => exact absurd rfl hstart

/-- Only a busy channel's transfer and a restart write BUF (20 R71). -/
theorem AgentEffect.buf_kept {s t : State} {a : Action} (heffect : AgentEffect s a t) (hidle : s.ch.busy = false)
    (ha : ¬ Restarts a) : t.buf = s.buf := by
  cases heffect with
  | stall | illegal | decIn0 | decIn1 | read | tick | waitOver | disable | timeout | decoded | peerClaimUnit
  | peerReleaseUnit | peerClaimChannel | peerReleaseChannel => rfl
  | transfer hbusy => cases hidle.symm.trans hbusy
  | command _ hdecode hcommand =>
    refine hcommand.buf_kept ?_ ?_
    · rintro rfl
      exact ha (.inr (.inr ⟨_, rfl, .inl hdecode⟩))
    · rintro m u p b rfl
      exact ha (.inr (.inr ⟨_, rfl, .inr ⟨m, u, p, b, hdecode⟩⟩))
  | blockReset => exact absurd (.inl rfl) ha
  | platformReset => exact absurd (.inr (.inl rfl)) ha

/-- Settles O57: in IDLE and UNINIT the channel is not busy (10 R44). -/
theorem idleBufferIsStable : Obligations.IdleBufferIsStable := by
  intro s t hinv hstate hstep hblock hplatform hwrite a
  have ha : ¬ Restarts (nextEvent s).action := by
    rintro (ha | ha | ⟨w, ha, hd | ⟨m, u, p, b, hd⟩⟩)
    · exact hblock ha
    · exact hplatform ha
    · exact (hwrite w ha).1 hd
    · exact (hwrite w ha).2 m u p b hd
  obtain ⟨-, hidle, -⟩ := hinv.ctl.quiet hstate.symm
  rw [(step_effect hstep).buf_kept ((prepare_ch s).symm ▸ hidle) ha, prepare_buf]

end Sys2Proof.Machine
end

section
/-! SUPPORT. The encoding (spec/30_encoding.md R80 to R89, R107): the one description of what a command word decodes
to, row by row of the opcode table, and the round trips of the decoder and the encoder that follow from it. -/

namespace Sys2Proof

/-! ## Models -/

@[simp] theorem modelOfCode_modelCode (m : Model) : modelOfCode (modelCode m) = m := by
  cases m <;> rfl

@[simp] theorem modelCode_modelOfCode (c : BitVec 2) : modelCode (modelOfCode c) = c := by
  revert c; decide

/-! ## Fields as numbers -/

theorem extractLsb'_toNat_div {n : Nat} (w : BitVec n) (start len : Nat) :
    (w.extractLsb' start len).toNat = w.toNat / 2 ^ start % 2 ^ len := by
  rw [BitVec.extractLsb'_toNat, Nat.shiftRight_eq_div_pow]

theorem getLsbD_toNat_div {n : Nat} (w : BitVec n) (i : Nat) : (w.getLsbD i).toNat = w.toNat / 2 ^ i % 2 :=
  Nat.toNat_testBit w.toNat i

theorem bool_toNat_inj {a b : Bool} : a.toNat = b.toNat ↔ a = b := by
  revert a b; decide

theorem initWord_toNat (m : Model) (u : Bool) (p b : Nat) : (initWord m u p b).toNat =
    1 + 16 * (modelCode m).toNat + 64 * u.toNat + 256 * (p % 32) + 8192 * (b % 4) := by
  simp only [initWord, Machine.toNat_append_add, BitVec.toNat_ofBool, BitVec.toNat_ofNat]
  omega

/-- What the decoder reads back from the operand fields of an `INIT` word (30 R81, R85). -/
theorem initWord_fields (m : Model) (u : Bool) (p b : Nat) :
    (initWord m u p b).extractLsb' 4 2 = modelCode m ∧ (initWord m u p b).getLsbD 6 = u ∧
    ((initWord m u p b).extractLsb' 8 5).toNat = p % 32 ∧ ((initWord m u p b).extractLsb' 13 2).toNat = b % 4 := by
  have hm := (modelCode m).isLt
  have hu := u.toNat_lt
  simp only [← BitVec.toNat_inj, ← bool_toNat_inj, extractLsb'_toNat_div, getLsbD_toNat_div, initWord_toNat]
  omega

/-- An operation with no operand has one word (30 R83). -/
theorem word_of_op {w : Word} {op : BitVec 4} (hop : w.extractLsb' 0 4 = op) (hrest : w.extractLsb' 4 28 = 0) :
    w = 0#28 ++ op := by
  subst hop
  simp only [← BitVec.toNat_inj, Machine.toNat_append_add, extractLsb'_toNat_div, BitVec.ofNat_eq_ofNat,
    BitVec.toNat_ofNat] at hrest ⊢
  omega

theorem initWord_of_fields {w : Word} (hop : w.extractLsb' 0 4 = 1) (htop : w.extractLsb' 15 17 = 0)
    (hgap : w.extractLsb' 7 1 = 0) : initWord (modelOfCode (w.extractLsb' 4 2)) (w.getLsbD 6)
        (w.extractLsb' 8 5).toNat (w.extractLsb' 13 2).toNat = w := by
  simp only [← BitVec.toNat_inj, initWord_toNat, modelCode_modelOfCode, extractLsb'_toNat_div, getLsbD_toNat_div,
    BitVec.ofNat_eq_ofNat, BitVec.toNat_ofNat] at hop htop hgap ⊢
  omega

theorem decodeWord_of_fields {w : Word} (hop : w.extractLsb' 0 4 = 5) (htop : w.extractLsb' 6 26 = 0) :
    decodeWord (modelOfCode (w.extractLsb' 4 2)) = w := by
  simp only [← BitVec.toNat_inj, decodeWord, Machine.toNat_append_add, modelCode_modelOfCode, extractLsb'_toNat_div,
    BitVec.ofNat_eq_ofNat, BitVec.toNat_ofNat] at hop htop ⊢
  omega

/-! ## The two rows with operands -/

/-- Where the mask is all ones, the match fixes the field (30 R83). -/
theorem extractLsb'_of_match {w mask m : Word} (h : w &&& mask = m) {start len : Nat}
    (hmask : mask.extractLsb' start len = BitVec.allOnes len) : w.extractLsb' start len = m.extractLsb' start len := by
  rw [← h, BitVec.extractLsb'_and, hmask, BitVec.and_allOnes]

theorem initWord_match (m : Model) (u : Bool) (p b : Nat) : initWord m u p b &&& 0xFFFF808F = 1 :=
  BitVec.eq_of_toNat_eq ((BitVec.toNat_and ..).trans (Laws.TableRow.init m u p b))

theorem decodeWord_match (m : Model) : decodeWord m &&& 0xFFFFFFCF = 5 :=
  BitVec.eq_of_toNat_eq ((BitVec.toNat_and ..).trans (Laws.TableRow.decode m))

theorem initRow_iff {w : Word} : w &&& 0xFFFF808F = 1 ↔
    w.extractLsb' 0 4 = 1 ∧ w.extractLsb' 15 17 = 0 ∧ w.extractLsb' 7 1 = 0 := by
  constructor
  · intro h
    exact ⟨extractLsb'_of_match h rfl, extractLsb'_of_match h rfl, extractLsb'_of_match h rfl⟩
  · rintro ⟨hop, htop, hgap⟩
    rw [← initWord_of_fields hop htop hgap]
    exact initWord_match ..

theorem decodeRow_iff {w : Word} : w &&& 0xFFFFFFCF = 5 ↔ w.extractLsb' 0 4 = 5 ∧ w.extractLsb' 6 26 = 0 := by
  constructor
  · intro h
    exact ⟨extractLsb'_of_match h rfl, extractLsb'_of_match h rfl⟩
  · rintro ⟨hop, htop⟩
    rw [← decodeWord_of_fields hop htop]
    exact decodeWord_match ..

/-! ## What decodes -/

/-- The instruction of a word in `INIT`'s row: the operands are the word's fields (30 R81, R85). -/
def initOfWord (w : Word) : Instr :=
  .init (modelOfCode (w.extractLsb' 4 2)) (w.getLsbD 6) (w.extractLsb' 8 5).toNat (w.extractLsb' 13 2).toNat

/-- The instruction of a word in `DECODE`'s row (30 R81). -/
def decodeOfWord (w : Word) : Instr := .decode (modelOfCode (w.extractLsb' 4 2))

/-- What a command word decodes to, row by row (30 R83). -/
theorem decode_command_iff {w : Word} {i : Instr} : decode (.command w) = .ok i ↔
    (w = 0 ∧ i = .nop) ∨ (w &&& 0xFFFF808F = 1 ∧ i = initOfWord w) ∨ (w = 2 ∧ i = .deinit) ∨
    (w = 3 ∧ i = .start) ∨ (w = 4 ∧ i = .finish) ∨ (w &&& 0xFFFFFFCF = 5 ∧ i = decodeOfWord w) := by
  constructor
  · intro h
    simp only [decode, decodeCommand] at h
    split_ifs at h with h0 hw h1 hw h2 hw h3 hw h4 hw h5 hw <;> cases h
    · exact .inl ⟨hw, rfl⟩
    · exact .inr (.inl ⟨initRow_iff.2 ⟨h1, hw⟩, rfl⟩)
    · exact .inr (.inr (.inl ⟨word_of_op h2 hw, rfl⟩))
    · exact .inr (.inr (.inr (.inl ⟨word_of_op h3 hw, rfl⟩)))
    · exact .inr (.inr (.inr (.inr (.inl ⟨word_of_op h4 hw, rfl⟩))))
    · exact .inr (.inr (.inr (.inr (.inr ⟨decodeRow_iff.2 ⟨h5, hw⟩, rfl⟩))))
  · rintro (⟨rfl, rfl⟩ | ⟨hw, rfl⟩ | ⟨rfl, rfl⟩ | ⟨rfl, rfl⟩ | ⟨rfl, rfl⟩ | ⟨hw, rfl⟩)
    · rfl
    · obtain ⟨hop, hrest⟩ := initRow_iff.1 hw
      simp [decode, decodeCommand, hop, hrest, initOfWord]
    · rfl
    · rfl
    · rfl
    · obtain ⟨hop, hrest⟩ := decodeRow_iff.1 hw
      simp [decode, decodeCommand, hop, hrest, decodeOfWord]

/-! ## The round trips -/

/-- Settles O1: an `INIT` word is in its row, and its fields are the operands it was made of; the other codes, four
of them `DECODE` words, compute. -/
theorem decodeOfEncodeIsIdentity : Obligations.DecodeOfEncodeIsIdentity := by
  intro i hwf
  cases i with
  | init m u p b =>
    simp only [Instr.wellFormed, Bool.and_eq_true, decide_eq_true_eq] at hwf
    obtain ⟨hp, hb⟩ := hwf
    obtain ⟨hmodel, hpull, hpin, hblock⟩ := initWord_fields m u p b
    refine decode_command_iff.2 (.inr (.inl ⟨initWord_match m u p b, ?_⟩))
    rw [initOfWord, hmodel, hpull, hpin, hblock, modelOfCode_modelCode, Nat.mod_eq_of_lt hp, Nat.mod_eq_of_lt hb]
  | decode m => cases m <;> rfl
  | nop | deinit | start | finish | pullStart | pullThresh | driveLow | waitRelease | waitAckLow | waitAckHigh
  | waitAckEnd | waitBitHigh | measureHigh | pushStall | done => rfl

theorem encode_of_decode_command {w : Word} {i : Instr} (h : decode (.command w) = .ok i) :
    i.wellFormed = true ∧ encode i = .command w := by
  obtain ⟨rfl, rfl⟩ | ⟨hw, rfl⟩ | ⟨rfl, rfl⟩ | ⟨rfl, rfl⟩ | ⟨rfl, rfl⟩ | ⟨hw, rfl⟩ := decode_command_iff.1 h
  · exact ⟨rfl, rfl⟩
  · obtain ⟨hop, htop, hgap⟩ := initRow_iff.1 hw
    have hfit : (initOfWord w).wellFormed = true :=
      Bool.and_eq_true_iff.2 ⟨decide_eq_true (w.extractLsb' 8 5).isLt, decide_eq_true (w.extractLsb' 13 2).isLt⟩
    exact ⟨hfit, congrArg Code.command (initWord_of_fields hop htop hgap)⟩
  · exact ⟨rfl, rfl⟩
  · exact ⟨rfl, rfl⟩
  · exact ⟨rfl, rfl⟩
  · obtain ⟨hop, htop⟩ := decodeRow_iff.1 hw
    exact ⟨rfl, congrArg Code.command (decodeWord_of_fields hop htop)⟩

/-- The sixteen phase codes, one by one (30 R89). -/
theorem encode_of_decode_phase {p : BitVec 4} {i : Instr} (h : decode (.phase p) = .ok i) :
    i.wellFormed = true ∧ encode i = .phase p := by
  have key : ∀ p, ∀ i ∈ (decodePhase p).toOption, i.wellFormed = true ∧ encode i = .phase p := by decide
  refine key p i ?_
  rw [show decodePhase p = .ok i from h]
  rfl

/-- Settles O2, for the two forms of a code. -/
theorem encodeOfDecodeIsIdentity : Obligations.EncodeOfDecodeIsIdentity
  | .command _, _, h => encode_of_decode_command h
  | .phase _, _, h => encode_of_decode_phase h

/-- Settles O3: the description of the decoder, its instruction left out. -/
theorem legalWordsAreTheTableRows : Obligations.LegalWordsAreTheTableRows := by
  intro w
  simp [decode_command_iff, exists_or]

/-! ## Operands and samples -/

theorem init_eq_of_decode {w : Word} {m : Model} {u : Bool} {p b : Nat}
    (h : decode (.command w) = .ok (.init m u p b)) : .init m u p b = initOfWord w := by
  simp only [decode_command_iff, decodeOfWord, reduceCtorEq, and_false, or_false, false_or] at h
  exact h.2

theorem decode_eq_of_decode {w : Word} {m : Model} (h : decode (.command w) = .ok (.decode m)) :
    .decode m = decodeOfWord w := by
  simp only [decode_command_iff, initOfWord, reduceCtorEq, and_false, false_or] at h
  exact h.2

theorem modelField_toNat (w : Word) : w.toNat / 16 % 4 = (modelCode (modelOfCode (w.extractLsb' 4 2))).toNat := by
  simp only [modelCode_modelOfCode, extractLsb'_toNat_div, Nat.reducePow]

/-- Settles O4: the operands are the fields the decoder reads, and a field is a quotient and a remainder. -/
theorem operandsAreTheWordFields : Obligations.OperandsAreTheWordFields := by
  refine ⟨fun w m u p b h => ?_, fun w m h => ?_⟩
  · cases init_eq_of_decode h
    refine ⟨(modelField_toNat w).trans ?_, rfl, extractLsb'_toNat_div w 8 5, extractLsb'_toNat_div w 13 2⟩
    cases modelOfCode _ <;> rfl
  · cases decode_eq_of_decode h
    refine (modelField_toNat w).trans ?_
    cases modelOfCode _ <;> rfl

/-- Settles O5: each code computes. -/
theorem sampleCodesDecode : Obligations.SampleCodesDecode :=
  ⟨rfl, rfl, rfl, rfl, rfl, rfl, rfl, rfl, rfl, rfl⟩

end Sys2Proof
end

section
/-! SUPPORT. What `STATUS`, the debug registers and `ID` show (spec/30_encoding.md R91, R99 to R102), and the writes
whose effect the fatal state or an illegal word decides (spec/60_exceptions.md R236, R238). -/

namespace Sys2Proof.Machine

/-! ## STATUS -/

theorem statusReg_toNat (s : State) : (statusReg s).toNat = (stateCode s.ctl.state).toNat +
    4 * (finSubCode s.ctl.finSub).toNat + 16 * s.seq.seqEn.toNat + 32 * s.ch.busy.toNat + 64 * s.ctl.fatal.toNat +
    128 * s.seq.pinDir.toNat + 256 * (causeCode s.ctl.faultCause).toNat +
    4096 * (resultCode s.ctl.reading.result).toNat + 16384 * s.seq.pull.toNat := by
  simp only [statusReg, toNat_append_add, BitVec.toNat_ofBool, BitVec.toNat_ofNat]
  omega

/-- Settles O42: the register is the sum of its codes at their places, and each code is its number. -/
theorem statusShowsTheState : Obligations.StatusShowsTheState := by
  intro s
  refine (statusReg_toNat s).trans ?_
  congr!
  · cases s.ctl.state <;> rfl
  · cases s.ctl.finSub <;> rfl
  · cases s.ctl.faultCause <;> rfl
  · cases s.ctl.reading.result <;> rfl

/-! ## Debug registers -/

theorem debugView_of_uninit {s : State} (h : s.ctl.state = .uninit) (v : Word) : debugView s v = 0 := if_pos h

theorem debugView_of_configured {s : State} (h : s.ctl.state ≠ .uninit) (v : Word) : debugView s v = v := if_neg h

theorem SeqInv.bitCnt_le {s : State} (h : SeqInv s) : s.seq.bitCnt ≤ 8 := by
  obtain hlo | hp | hp | hp : s.seq.phase.toNat ≤ 6 ∨ (s.seq.phase = 7 ∨ s.seq.phase = 8) ∨ s.seq.phase = 9 ∨
      s.seq.phase = 10 := by
    have hlegal := h.legalPhase
    bv_omega
  · have hpushed := h.pushed
    have hbits := h.beforeBits hlo
    omega
  · exact (h.duringBits hp).1.le
  · exact (h.stalled hp).1.le
  · exact (h.finished hp).1.trans_le (Nat.zero_le 8)

/-- Under the invariant every count fits its field (30 R99). -/
theorem SeqInv.seqDbgReg_toNat {s : State} (h : SeqInv s) (hs : s.ctl.state ≠ .uninit) : (seqDbgReg s).toNat =
    s.seq.phase.toNat + 16 * s.seq.bitCnt + 256 * s.seq.nBits + 65536 * s.seq.inq.length +
    1048576 * s.seq.outq.length + 8388608 * s.seq.seqEn.toNat + 16777216 * s.seq.isr.toNat := by
  have hcnt := h.bitCnt_le
  have hbits := h.nBits_le
  have hinq : s.seq.inq.length ≤ 4 := h.inqLevel
  have houtq : s.seq.outq.length ≤ 4 := h.outqLevel
  simp only [seqDbgReg, debugView_of_configured hs, toNat_append_add, BitVec.toNat_ofBool, BitVec.toNat_ofNat]
  omega

/-- Under the invariant both counts fit their fields (30 R100). -/
theorem ChanInv.chDbgReg_toNat {s : State} (h : ChanInv s) (hs : s.ctl.state ≠ .uninit) :
    (chDbgReg s).toNat = s.ch.count + 16 * s.ch.dst + 256 * s.ch.busy.toNat := by
  have htotal := h.total
  simp only [chDbgReg, debugView_of_configured hs, toNat_append_add, BitVec.toNat_ofBool, BitVec.toNat_ofNat]
  omega

/-- Settles O44: the debug view decides between 0 and the register, and the invariant bounds the counts. -/
theorem debugRegistersShowThePipeline : Obligations.DebugRegistersShowThePipeline := by
  intro s hinv
  refine ⟨rfl, fun hs => ?_, fun hs => ?_⟩
  · exact ⟨debugView_of_uninit hs _, debugView_of_uninit hs _, debugView_of_uninit hs _, debugView_of_uninit hs _,
      debugView_of_uninit hs _⟩
  · exact ⟨hinv.seq.seqDbgReg_toNat hs, hinv.chan.chDbgReg_toNat hs, debugView_of_configured hs _,
      debugView_of_configured hs _, debugView_of_configured hs _⟩

/-! ## Writes to `CMD` that are no command -/

theorem hostWriteCmd_of_fatal {s : State} (h : s.ctl.fatal = true) (w : Word) : hostWriteCmd w s = .next s :=
  if_pos h

theorem hostWriteCmd_of_illegal {w : Word} {s : State} (hd : ∀ i, decode (.command w) ≠ .ok i)
    (hf : s.ctl.fatal = false) : hostWriteCmd w s = .next (fatalEntry .illegalCommand w s) := by
  obtain ⟨hf', -⟩ | ⟨-, -, hw⟩ | ⟨i, -, hi, -⟩ := hostWriteCmd_cases w s
  · cases hf.symm.trans hf'
  · exact hw
  · exact absurd hi (hd i)

/-- Settles O9: the two cases of an illegal word, by `FATAL`. -/
theorem illegalCommandIsFatal : Obligations.IllegalCommandIsFatal := by
  intro s w ha hd
  rw [step_of_cmd_write ha, ← prepare_ctl s]
  exact ⟨hostWriteCmd_of_illegal hd, fun hf => hostWriteCmd_of_fatal hf w⟩

/-- Settles O20: the fatal state stops commands, and the decode operand is no command. -/
theorem fatalStateIgnoresCommands : Obligations.FatalStateIgnoresCommands := by
  intro s w hf
  rw [← prepare_ctl s] at hf ⊢
  refine ⟨fun ha => ?_, fun ha => ?_, fun ha => ?_⟩
  · exact (step_of_cmd_write ha).trans (hostWriteCmd_of_fatal hf w)
  · exact ⟨_, step_of_aligned_write (by decide) ha, rfl⟩
  · exact ⟨_, step_of_aligned_write (by decide) ha, rfl⟩

end Sys2Proof.Machine
end

section
/-! SUPPORT. The sequencer's phases, tick by tick (spec/40_sequencer.md R112 to R121), what every phase leaves unchanged
(R110), and who else writes the group while the sequencer runs (R132). -/

namespace Sys2Proof.Machine

/-! ## One phase -/

/-- A phase is its tick of the sequencer group: knowing what the tick makes of the group is knowing the next state. -/
theorem exec_of_tick {i : Instr} {f : Seq → Seq} {s : State} {q : Seq} (hexec : exec i s = .next (onSeq f s))
    (htick : f s.seq = q) : exec i s = .next { s with seq := q } := by
  rw [hexec, onSeq, htick]

/-- The sample of R111, as the statements write it. -/
theorem lineSample_of_eq {s : State} {line : Bool}
    (h : line = if s.seq.pinDir = true then false else s.env.draws.line) : lineSample s = line := by
  rw [h, lineSample]
  cases s.seq.pinDir <;> rfl

/-! ## `MEASURE_HIGH` and `PUSH_STALL` -/

/-- The incremented width stops at the largest word (40 R120). -/
theorem satIncr_eq_min (w : Word) : satIncr w = BitVec.ofNat 32 (min (w.toNat + 1) 0xFFFFFFFF) := by
  unfold satIncr
  split_ifs with h
  · rw [h]
    rfl
  · rw [min_eq_left (by bv_omega)]
    bv_omega

/-- The classified bit as a number (40 R124). -/
theorem classify_toNat (w y : Word) : (classify w y).toNat = if w.toNat > y.toNat then 1 else 0 := by
  by_cases h : y.toNat < w.toNat <;> simp [classify, h]

theorem tickMeasureHigh_high (q : Seq) : tickMeasureHigh true q = { q with w := satIncr q.w } := rfl

theorem tickMeasureHigh_low (q : Seq) : tickMeasureHigh false q = packBit (classify q.w q.y) q := rfl

theorem packBit_of_lt {q : Seq} (h : q.bitCnt + 1 < 8) (b : Bool) : packBit b q =
    { q with nBits := q.nBits + 1, isr := shiftIn q.isr b, bitCnt := q.bitCnt + 1, phase := 7 } := by
  obtain ⟨-, hb⟩ | ⟨hge, -⟩ | ⟨hge, -⟩ := packBit_cases b q
  · exact hb
  all_goals omega

theorem packBit_of_room {q : Seq} (h : 8 ≤ q.bitCnt + 1) (hroom : q.outq.length < queueDepth) (b : Bool) :
    packBit b q = { q with
      nBits := q.nBits + 1, outq := q.outq ++ [shiftIn q.isr b], isr := 0, bitCnt := 0
      phase := afterPush (q.nBits + 1) } := by
  obtain ⟨hlt, -⟩ | ⟨-, hfull, -⟩ | ⟨-, -, hb⟩ := packBit_cases b q
  · omega
  · omega
  · exact hb

theorem packBit_of_full {q : Seq} (h : 8 ≤ q.bitCnt + 1) (hfull : queueDepth ≤ q.outq.length) (b : Bool) :
    packBit b q = { q with nBits := q.nBits + 1, isr := shiftIn q.isr b, bitCnt := 8, phase := 9 } := by
  obtain ⟨hlt, -⟩ | ⟨-, -, hb⟩ | ⟨-, hroom, -⟩ := packBit_cases b q
  · omega
  · exact hb
  · omega

/-- Settles O28: the high level counts, and the fall packs the classified bit in one of three ways. -/
theorem measureHighClassifiesAndPacks : Obligations.MeasureHighClassifiesAndPacks := by
  intro s line hline
  have hexec : exec .measureHigh s = .next (onSeq (tickMeasureHigh line) s) := by
    rw [← lineSample_of_eq hline]
    rfl
  refine ⟨?_, ?_⟩
  · rintro rfl
    exact exec_of_tick hexec (by rw [tickMeasureHigh_high, satIncr_eq_min])
  · rintro rfl
    refine ⟨(classify s.seq.w s.seq.y).toNat, shiftIn s.seq.isr (classify s.seq.w s.seq.y), classify_toNat ..,
      shiftIn_toNat .., fun hlt => ?_, fun hge hroom => ?_, fun hge hfull => ?_⟩
    · exact exec_of_tick hexec (packBit_of_lt hlt _)
    · exact exec_of_tick hexec (packBit_of_room hge hroom _)
    · exact exec_of_tick hexec (packBit_of_full hge hfull _)

theorem tickPushStall_of_full {q : Seq} (h : queueDepth ≤ q.outq.length) : tickPushStall q = q :=
  if_pos (decide_eq_true h)

theorem tickPushStall_of_room {q : Seq} (h : q.outq.length < queueDepth) : tickPushStall q = { q with
    outq := q.outq ++ [q.isr], isr := 0, bitCnt := 0, phase := afterPush q.nBits } :=
  if_neg (by simpa [queueFull] using h)

/-- Settles O29, on both sides of the depth of OUTQ. -/
theorem pushStallRetriesThePush : Obligations.PushStallRetriesThePush :=
  fun _ => ⟨fun hfull => exec_of_tick rfl (tickPushStall_of_full hfull),
    fun hroom => exec_of_tick rfl (tickPushStall_of_room hroom)⟩

/-! ## Timing words, the pulse and waits -/

theorem tickPullStart_nil {q : Seq} (h : q.inq = []) : tickPullStart q = q := by
  simp only [tickPullStart, h]

theorem tickPullStart_cons {q : Seq} {v : Word} {rest : List Word} (h : q.inq = v :: rest) :
    tickPullStart q = { q with x := v, inq := rest, phase := 1 } := by
  simp only [tickPullStart, h]

theorem tickPullThresh_nil {q : Seq} (h : q.inq = []) : tickPullThresh q = q := by
  simp only [tickPullThresh, h]

theorem tickPullThresh_no_pulse {q : Seq} {v : Word} {rest : List Word} (h : q.inq = v :: rest) (hx : q.x = 0) :
    tickPullThresh q = { q with y := v, inq := rest, phase := 3 } := by
  simp only [tickPullThresh, h, if_pos hx]

theorem tickPullThresh_pulse {q : Seq} {v : Word} {rest : List Word} (h : q.inq = v :: rest) (hx : q.x ≠ 0) :
    tickPullThresh q = { q with y := v, inq := rest, pinDir := true, phase := 2 } := by
  simp only [tickPullThresh, h, if_neg hx]

/-- Settles O24: an empty INQ stalls both phases, and of a word the second phase makes a pulse unless X is 0. -/
theorem timingWordsAreLoadedInOrder : Obligations.TimingWordsAreLoadedInOrder := by
  intro s
  refine ⟨fun h => ⟨?_, ?_⟩, fun v rest h => ?_, fun v rest h hx => ?_, fun v rest h hx => ?_⟩
  · exact exec_of_tick rfl (tickPullStart_nil h)
  · exact exec_of_tick rfl (tickPullThresh_nil h)
  · exact exec_of_tick rfl (tickPullStart_cons h)
  · exact exec_of_tick rfl (tickPullThresh_no_pulse h hx)
  · exact exec_of_tick rfl (tickPullThresh_pulse h hx)

/-- Settles O25: only X = 1 is 0 after the decrement. -/
theorem driveLowCountsAndReleases : Obligations.DriveLowCountsAndReleases :=
  fun _ => ⟨fun h => exec_of_tick rfl (tickDriveLow_of_eq_one h),
    fun h => exec_of_tick rfl (tickDriveLow_of_ne_one h)⟩

theorem tickWaitLevel_of_eq {level line : Bool} (h : line = level) (next : BitVec 4) (q : Seq) :
    tickWaitLevel level next line q = { q with phase := next } := if_pos h

theorem tickWaitLevel_of_ne {level line : Bool} (h : line ≠ level) (next : BitVec 4) (q : Seq) :
    tickWaitLevel level next line q = q := if_neg h

/-- A phase that waits for a level goes on at that level and stays at the other (40 R115 to R118). -/
theorem exec_of_wait {i : Instr} {level : Bool} {next : BitVec 4} {s : State}
    (hexec : exec i s = .next (onSeq (tickWaitLevel level next (lineSample s)) s)) :
    (lineSample s = level → exec i s = .next { s with seq := { s.seq with phase := next } }) ∧
    (lineSample s = (!level) → exec i s = .next s) :=
  ⟨fun h => exec_of_tick hexec (tickWaitLevel_of_eq h next s.seq),
    fun h => exec_of_tick hexec (tickWaitLevel_of_ne (by simp [h]) next s.seq)⟩

/-- Settles O27: four phases wait for a level of the sample, and the fifth starts the width too. -/
theorem waitPhasesFollowTheLine : Obligations.WaitPhasesFollowTheLine := by
  intro s line hline
  obtain rfl := lineSample_of_eq hline
  obtain ⟨releaseGoes, releaseStays⟩ := exec_of_wait (i := .waitRelease) (s := s) rfl
  obtain ⟨ackLowGoes, ackLowStays⟩ := exec_of_wait (i := .waitAckLow) (s := s) rfl
  obtain ⟨ackHighGoes, ackHighStays⟩ := exec_of_wait (i := .waitAckHigh) (s := s) rfl
  obtain ⟨ackEndGoes, ackEndStays⟩ := exec_of_wait (i := .waitAckEnd) (s := s) rfl
  refine ⟨releaseGoes, releaseStays, ackLowGoes, ackLowStays, ackHighGoes, ackHighStays, ackEndGoes, ackEndStays,
    fun h => exec_of_tick rfl ?_, fun h => exec_of_tick rfl ?_⟩
  · rw [h]
    rfl
  · rw [h]
    rfl

/-! ## The frame of every phase -/

/-- The part of the sequencer that no phase writes: `SEQ_EN` and `PULL` (40 R110, R127). -/
def enabling (q : Seq) : Bool × Bool := (q.seqEn, q.pull)

theorem enabling_tickPullStart (q : Seq) : enabling (tickPullStart q) = enabling q := by
  unfold tickPullStart
  split <;> rfl

theorem enabling_tickPullThresh (q : Seq) : enabling (tickPullThresh q) = enabling q := by
  unfold tickPullThresh
  split
  · rfl
  · split_ifs <;> rfl

theorem enabling_tickDriveLow (q : Seq) : enabling (tickDriveLow q) = enabling q := by
  by_cases h : q.x = 1
  · rw [tickDriveLow_of_eq_one h]; rfl
  · rw [tickDriveLow_of_ne_one h]; rfl

theorem enabling_tickWaitLevel (level : Bool) (next : BitVec 4) (line : Bool) (q : Seq) :
    enabling (tickWaitLevel level next line q) = enabling q := by
  unfold tickWaitLevel
  split_ifs <;> rfl

theorem enabling_tickWaitBitHigh (line : Bool) (q : Seq) : enabling (tickWaitBitHigh line q) = enabling q := by
  cases line <;> rfl

theorem enabling_tickMeasureHigh (line : Bool) (q : Seq) : enabling (tickMeasureHigh line q) = enabling q := by
  cases line with
  | true => rfl
  | false =>
    rw [tickMeasureHigh_low]
    obtain ⟨-, h⟩ | ⟨-, -, h⟩ | ⟨-, -, h⟩ := packBit_cases (classify q.w q.y) q <;> rw [h] <;> rfl

theorem enabling_tickPushStall (q : Seq) : enabling (tickPushStall q) = enabling q := by
  unfold tickPushStall
  split_ifs <;> rfl

theorem enabling_execState {i : Instr} {p : BitVec 4} (h : encode i = .phase p) (s : State) :
    enabling (execState i s).seq = enabling s.seq := by
  cases i with
  | nop | init | deinit | start | finish | decode => cases h
  | pullStart => exact enabling_tickPullStart s.seq
  | pullThresh => exact enabling_tickPullThresh s.seq
  | driveLow => exact enabling_tickDriveLow s.seq
  | waitRelease | waitAckLow | waitAckHigh | waitAckEnd => exact enabling_tickWaitLevel ..
  | waitBitHigh => exact enabling_tickWaitBitHigh ..
  | measureHigh => exact enabling_tickMeasureHigh ..
  | pushStall => exact enabling_tickPushStall s.seq
  | done => rfl

/-- Settles O30: a phase is a step on the sequencer group, and its tick keeps both registers. -/
theorem phasesWriteTheSequencerAlone : Obligations.PhasesWriteTheSequencerAlone := by
  intro s i p hi
  obtain ⟨f, hf⟩ := execState_of_phase hi s
  have hen := enabling_execState hi s
  refine ⟨_, exec_next i s, ?_⟩
  rw [hf] at hen ⊢
  exact ⟨rfl, rfl, rfl, rfl, rfl, rfl, congrArg Prod.fst hen, congrArg Prod.snd hen⟩

/-! ## Who else writes the sequencer while it runs -/

/-- A sequencer that runs is in ARMED or FINISHING (10 R44), so of the commands only DEINIT reaches it. -/
theorem CommandEffect.seq_of_running {s t : State} {i : Instr} (heffect : CommandEffect s i t) (hinv : CtlInv s)
    (hen : s.seq.seqEn = true) :
    t.seq = s.seq ∨ t.seq = seqDisable s.seq ∧ i = .deinit ∧ s.ctl.state = .armed := by
  have hbusy : ¬ (s.ctl.state = .uninit ∨ s.ctl.state = .idle) :=
    fun hs => nomatch hen.symm.trans (hinv.quiet hs).1
  cases heffect with
  | nop | fault | finish | decode => exact .inl rfl
  | initFault _ _ hclaims => cases hclaims <;> exact .inl rfl
  | init hstate => exact absurd (.inl hstate) hbusy
  | start hstate => exact absurd (.inr hstate) hbusy
  | deinit hstate => exact .inr ⟨rfl, rfl, hstate.resolve_left fun hs => hbusy (.inr hs)⟩

theorem word_of_decode_deinit {w : Word} (h : decode (.command w) = .ok .deinit) : w = 0x00000002 :=
  (Code.command.inj (encode_of_decode_command h).2).symm

theorem AgentEffect.seq_of_running {s t : State} {a : Action} (heffect : AgentEffect s a t) (hinv : CtlInv s)
    (hen : s.seq.seqEn = true) (htick : a ≠ .seqTick) (hblock : a ≠ .blockReset)
    (hplatform : a ≠ .platformReset) :
    t.seq = s.seq ∨
    (t.seq = seqDisable s.seq ∧
      (a = .ctlStep ∧ s.ctl.fatal = false ∧ s.ctl.state = .finishing ∧ s.ctl.finSub = .disable ∨
       a = .hostWrite 32 0x00 0x00000002 ∧ s.ctl.fatal = false ∧ s.ctl.state = .armed)) ∨
    (a = .chStep ∧ t.seq = { s.seq with outq := s.seq.outq.tail }) := by
  cases heffect with
  | stall | illegal | decIn0 | decIn1 | read | waitOver | timeout | decoded | peerClaimUnit | peerReleaseUnit
  | peerClaimChannel | peerReleaseChannel => exact .inl rfl
  | command hfatal hdecode hcommand =>
    obtain hkept | ⟨hseq, rfl, hstate⟩ := hcommand.seq_of_running hinv hen
    · exact .inl hkept
    · obtain rfl := word_of_decode_deinit hdecode
      exact .inr (.inl ⟨hseq, .inr ⟨rfl, hfatal, hstate⟩⟩)
  | disable hfatal hstate hsub => exact .inr (.inl ⟨rfl, .inl ⟨rfl, hfatal, hstate, hsub⟩⟩)
  | transfer _ houtq => exact .inr (.inr ⟨rfl, by rw [houtq]; rfl⟩)
  | tick => exact absurd rfl htick
  | blockReset => exact absurd rfl hblock
  | platformReset => exact absurd rfl hplatform

/-- Settles O56: the stop is `seqDisable`, from DISABLE or from DEINIT. -/
theorem nothingDisturbsARunningSequencer : Obligations.NothingDisturbsARunningSequencer := by
  intro s t hinv hen hstep htick hblock hplatform
  rw [← prepare_seq s] at hen ⊢
  rw [← prepare_ctl s]
  exact (step_effect hstep).seq_of_running (stateInv_prepare hinv).ctl hen htick hblock hplatform

end Sys2Proof.Machine
end

section
/-! SUPPORT. The transfer channel (spec/41_transfer_channel.md R143 to R145): what an enabled channel step does in a
state of the invariant, when the channel's own step completes, and the abort. -/

namespace Sys2Proof.Machine

theorem step_of_chStep {s : State} (h : (nextEvent s).action = .chStep) : step s = chTransfer (prepare s) := by
  rw [step_eq, h]
  rfl

/-- With a byte queued, a busy channel transfers it: the invariant excludes both faults (41 R143). -/
theorem ChanInv.chTransfer_of_enabled {s : State} {v : Byte} {rest : List Byte} (h : ChanInv s)
    (hbusy : s.ch.busy = true) (houtq : s.seq.outq = v :: rest) :
    chTransfer s = .next { s with
      seq := { s.seq with outq := rest }
      buf := bufPut s.ch.dst v s.buf
      ch := { busy := decide (s.ch.count ≠ 1), count := s.ch.count - 1, dst := s.ch.dst + 1 } } := by
  obtain ⟨t, ht⟩ := h.chTransfer_next
  obtain ⟨hoff, -⟩ | ⟨-, -, hfault⟩ | ⟨-, -, -, hfault⟩ | ⟨v', rest', -, houtq', -, -, hnext⟩ := chTransfer_cases s
  · rw [chEnabled_eq_false, hbusy, houtq] at hoff
    exact hoff.elim nofun nofun
  · cases hfault.symm.trans ht
  · cases hfault.symm.trans ht
  · obtain ⟨rfl, rfl⟩ := List.cons.inj (houtq.symm.trans houtq')
    have hone := (h.running hbusy).2
    have hlast : s.ch.count - 1 ≠ 0 ↔ s.ch.count ≠ 1 := by omega
    rw [hnext, decide_eq_decide.2 hlast]

/-- Settles O32: the byte is written at the model's own CH_DST, and `bufPut` writes that address alone. -/
theorem transferMovesOneByte : Obligations.TransferMovesOneByte := by
  intro s v rest ha hinv hbusy houtq
  rw [← prepare_ch] at hbusy
  rw [← prepare_seq] at houtq
  have htransfer := (stateInv_prepare hinv).chan.chTransfer_of_enabled hbusy houtq
  refine ⟨_, (step_of_chStep ha).trans htransfer, ?_⟩
  simp only [prepare_ctl, prepare_seq, prepare_ch, prepare_buf, prepare_alloc, prepare_params, true_and]
  exact ⟨bufGet_bufPut_same hinv.buf s.ch.dst v, fun a hne => bufGet_bufPut_other s.buf v hne⟩

/-- A channel step that ends the run took the last of the count; the count and the address add up to 5 (41 R144). -/
theorem AgentEffect.completion {s t : State} (heffect : AgentEffect s .chStep t) (h : ChanInv s)
    (hbusy : s.ch.busy = true) (hidle : t.ch.busy = false) : s.ch.dst = 4 ∧ t.ch.count = 0 ∧ t.ch.dst = 5 := by
  cases heffect with
  | stall => cases hbusy.symm.trans hidle
  | transfer _ _ hcount =>
    have hsum := (h.running hbusy).1
    have hlast : s.ch.count - 1 = 0 := not_not.1 (of_decide_eq_false hidle)
    have hdst : s.ch.dst = 4 := by omega
    exact ⟨hdst, hlast, congrArg (· + 1) hdst⟩

/-- Settles O33: of the two ways a channel step can end, only a transfer takes CH_BUSY from 1 to 0. -/
theorem completionIsTheFifthTransfer : Obligations.CompletionIsTheFifthTransfer := by
  intro s t hinv ha hbusy hstep hidle
  have heffect := step_effect hstep
  rw [ha] at heffect
  rw [← prepare_ch] at hbusy ⊢
  exact heffect.completion (stateInv_prepare hinv).chan hbusy hidle

/-- Settles O34: `chAbort` is that update, and writing the same field twice is writing it once. -/
theorem abortIsIdempotent : Obligations.AbortIsIdempotent := fun _ => ⟨rfl, rfl⟩

end Sys2Proof.Machine
end

section
/-! SUPPORT. The controller (spec/42_controller.md R160 to R181): each command's effect as a whole state and its
faults, the FINISH sub-phases, and how a measurement ends. -/

namespace Sys2Proof.Machine

/-! ## The command step -/

theorem commandStep_of_finishing {w : Word} {perform : State → State} {s : State} (hf : s.ctl.fatal = false)
    (hs : s.ctl.state = .finishing) : commandStep w perform s = fatalEntry .busyReentry w s := by
  simp [commandStep, hf, hs]

/-- Outside the fatal state and FINISHING a command is its body (42 R160). -/
theorem exec_of_perform {i : Instr} {perform : State → State} {s : State}
    (hexec : exec i s = .next (commandStep (commandWord i) perform s)) (hf : s.ctl.fatal = false)
    (hs : s.ctl.state ≠ .finishing) : exec i s = .next (perform s) := by
  rw [hexec, commandStep_runs hf hs]

/-- Settles O11: both meanings answer their state. -/
theorem nopAndDoneChangeNothing : Obligations.NopAndDoneChangeNothing := fun _ => ⟨rfl, rfl⟩

/-- Settles O18, command by command: each meaning is a command step under the word that encodes it. -/
theorem commandsDuringFinishAreReentry : Obligations.CommandsDuringFinishAreReentry := by
  intro s i w hf hs hi hne
  cases i with
  | nop => exact absurd rfl hne
  | init | deinit | start | finish | decode =>
    cases hi
    exact congrArg Host.Outcome.next (commandStep_of_finishing hf hs)
  | pullStart | pullThresh | driveLow | waitRelease | waitAckLow | waitAckHigh | waitAckEnd | waitBitHigh
  | measureHigh | pushStall | done => cases hi

/-! ## `INIT` -/

/-- A set with a member has a chosen one, the drawn one where it is a member (60 R246; log 13). -/
theorem choose_of_ne_nil {free : List Nat} (h : free ≠ []) (pick : Nat) :
    ∃ u ∈ free, (pick ∈ free → u = pick) ∧ choose free pick = some u := by
  obtain ⟨u, hu⟩ := Option.ne_none_iff_exists'.1 (mt choose_eq_none.1 h)
  refine ⟨u, choose_mem hu, fun hpick => ?_, hu⟩
  exact Option.some.inj (hu.symm.trans (if_pos hpick))

theorem claimUnit_of_full {b : Nat} {s : State} (h : freeUnits b s = []) : claimUnit b s = none := by
  rw [claimUnit, choose_eq_none.2 h]

theorem claimUnit_of_free {b : Nat} {s : State} (h : freeUnits b s ≠ []) :
    ∃ uid ∈ freeUnits b s, (s.env.draws.unitPick ∈ freeUnits b s → uid = s.env.draws.unitPick) ∧
      claimUnit b s = some (uid, holdUnit b uid s) := by
  obtain ⟨uid, hfree, hdrawn, hchoose⟩ := choose_of_ne_nil h s.env.draws.unitPick
  exact ⟨uid, hfree, hdrawn, by rw [claimUnit, hchoose]⟩

theorem claimChannel_of_full {s : State} (h : freeChannels s = []) : claimChannel s = none := by
  rw [claimChannel, choose_eq_none.2 h]

theorem claimChannel_of_free {s : State} (h : freeChannels s ≠ []) :
    ∃ cid ∈ freeChannels s, (s.env.draws.chanPick ∈ freeChannels s → cid = s.env.draws.chanPick) ∧
      claimChannel s = some (cid, holdChannel cid s) := by
  obtain ⟨cid, hfree, hdrawn, hchoose⟩ := choose_of_ne_nil h s.env.draws.chanPick
  exact ⟨cid, hfree, hdrawn, by rw [claimChannel, hchoose]⟩

theorem performInit_of_checked {w : Word} {m : Model} {u : Bool} {p b : Nat} {s : State} (hs : s.ctl.state = .uninit)
    (hb : b < numBlocks s.params) (hp : p < numPins s.params) :
    performInit w m u p b s = initClaims w m u p b s := by
  rw [performInit, if_neg (not_not.2 hs), if_neg (not_le.2 hb), if_neg (not_le.2 hp)]

/-- Past the checks and with a free unit, `INIT` claims a free unit, the drawn one if it is free, and goes on to the
channel, whose freedom the claim of a unit does not change (42 R162). -/
theorem initClaims_of_free_unit {b : Nat} {s : State} (h : freeUnits b s ≠ []) (w : Word) (m : Model) (u : Bool)
    (p : Nat) : ∃ uid ∈ freeUnits b s, (s.env.draws.unitPick ∈ freeUnits b s → uid = s.env.draws.unitPick) ∧
      (freeChannels s = [] → initClaims w m u p b s = fatalEntry .noFreeChannel w (holdUnit b uid s)) ∧
      (freeChannels s ≠ [] → ∃ cid ∈ freeChannels s,
        (s.env.draws.chanPick ∈ freeChannels s → cid = s.env.draws.chanPick) ∧
        (s.env.draws.loadOk = false → initClaims w m u p b s =
          fatalEntry .noProgramSpace w (holdChannel cid (holdUnit b uid s))) ∧
        (s.env.draws.loadOk = true → initClaims w m u p b s =
          initWrites m u p b uid cid (holdProgram b (holdChannel cid (holdUnit b uid s))))) := by
  obtain ⟨uid, huid, hdrawn, hunit⟩ := claimUnit_of_free h
  refine ⟨uid, huid, hdrawn, fun hfull => ?_, fun hfree => ?_⟩
  · simp only [initClaims, hunit, claimChannel_of_full (s := holdUnit b uid s) hfull]
  · obtain ⟨cid, hcid, hdrawn, hchan⟩ := claimChannel_of_free (s := holdUnit b uid s) hfree
    refine ⟨cid, hcid, hdrawn, fun hload => ?_, fun hload => ?_⟩
    · simp [initClaims, hunit, hchan, loadProgram, hload]
    · simp [initClaims, hunit, hchan, loadProgram, hload]

/-- `P_SYS_CLK_HZ` is a multiple of the sequencer's clock, so `DIV` is exact (60 R245). -/
theorem sysClkHz_div_seqClkHz (p : Params) : sysClkHz p / seqClkHz = p.sysClkMHzLess1 + 1 :=
  Nat.mul_div_cancel _ (by decide)

theorem exec_init {m : Model} {u : Bool} {p b : Nat} {s : State} (hf : s.ctl.fatal = false)
    (hs : s.ctl.state ≠ .finishing) :
    exec (.init m u p b) s = .next (performInit (initWord m u p b) m u p b s) :=
  exec_of_perform rfl hf hs

theorem exec_init_of_checked {m : Model} {u : Bool} {p b : Nat} {s : State} (hf : s.ctl.fatal = false)
    (hs : s.ctl.state = .uninit) (hb : b < numBlocks s.params) (hp : p < numPins s.params) :
    exec (.init m u p b) s = .next (initClaims (initWord m u p b) m u p b s) := by
  rw [exec_init hf (by simp [hs]), performInit_of_checked hs hb hp]

/-- Settles O12: with a free unit, a free channel and room for the program, the claims end in `initWrites`. -/
theorem initConfiguresTheInstance : Obligations.InitConfiguresTheInstance := by
  intro s m u p b hf hs hb hp hunits hchans hload
  obtain ⟨uid, huid, hunitDrawn, -, hchannel⟩ := initClaims_of_free_unit hunits (initWord m u p b) m u p
  obtain ⟨cid, hcid, hchanDrawn, -, hwrites⟩ := hchannel hchans
  obtain ⟨huid, hunitFree⟩ := mem_freeUnits.1 huid
  obtain ⟨hcid, hchanFree⟩ := mem_freeChannels.1 hcid
  refine ⟨uid, cid, _, (exec_init_of_checked hf hs hb hp).trans (congrArg _ (hwrites hload)), huid, hunitFree,
    hunitDrawn, hcid, hchanFree, hchanDrawn, fun _ => rfl, ?_⟩
  rw [← sysClkHz_div_seqClkHz]
  rfl

/-- Settles O13, check by check: the first failing one decides, and the claims before it stay. -/
theorem initChecksInOrder : Obligations.InitChecksInOrder := by
  intro s m u p b hf hs
  refine ⟨fun hu => ?_, fun hu hb => ?_, fun hu hb hp => ?_, fun hu hb hp hunits => ?_,
    fun hu hb hp hunits hchans => ?_, fun hu hb hp hunits hchans hload => ?_⟩
  · rw [exec_init hf hs, performInit, if_pos hu]
  · rw [exec_init hf hs, performInit, if_neg (not_not.2 hu), if_pos hb]
  · rw [exec_init hf hs, performInit, if_neg (not_not.2 hu), if_neg (not_le.2 hb), if_pos hp]
  · rw [exec_init_of_checked hf hu hb hp, initClaims, claimUnit_of_full hunits]
  · obtain ⟨uid, huid, -, hfull, -⟩ := initClaims_of_free_unit hunits (initWord m u p b) m u p
    exact ⟨uid, huid, (exec_init_of_checked hf hu hb hp).trans (congrArg _ (hfull hchans))⟩
  · obtain ⟨uid, huid, -, -, hchannel⟩ := initClaims_of_free_unit hunits (initWord m u p b) m u p
    obtain ⟨cid, hcid, -, hnoRoom, -⟩ := hchannel hchans
    exact ⟨uid, huid, cid, hcid, (exec_init_of_checked hf hu hb hp).trans (congrArg _ (hnoRoom hload))⟩

/-! ## Faults -/

theorem commandWord_of_encode {i : Instr} {w : Word} (h : encode i = .command w) : commandWord i = w := by
  rw [commandWord, h]

/-- Everything a command can do outside the fatal state, whether or not a word holds its operands (log 20). -/
theorem execState_effect_of_encode {i : Instr} {w : Word} {s : State} (hi : encode i = .command w)
    (hf : s.ctl.fatal = false) : CommandEffect s i (execState i s) := by
  cases i with
  | nop => exact .nop
  | init m u p b => exact commandStep_effect hf fun _ => performInit_effect m u p b s
  | deinit => exact commandStep_effect hf performDeinit_effect
  | start => exact commandStep_effect hf fun _ => performStart_effect s
  | finish => exact commandStep_effect hf fun _ => performFinish_effect s
  | decode m => exact commandStep_effect hf fun _ => .decode m
  | pullStart | pullThresh | driveLow | waitRelease | waitAckLow | waitAckHigh | waitAckEnd | waitBitHigh
  | measureHigh | pushStall | done => cases hi

/-- A command that raises FATAL entered the fatal state under its own word, with nothing else changed but the claims of
an `INIT` (60 R233, R234). -/
theorem CommandEffect.fault_precise {s t : State} {i : Instr} (heffect : CommandEffect s i t)
    (hf : s.ctl.fatal = false) (hft : t.ctl.fatal = true) :
    t = { s with
      ctl := { s.ctl with fatal := true, faultCause := t.ctl.faultCause, faultInfo := t.ctl.faultInfo }
      alloc := t.alloc } ∧
    t.ctl.faultInfo = commandWord i ∧ ((∀ m u p b, i ≠ .init m u p b) → t.alloc = s.alloc) := by
  cases heffect with
  | fault => exact ⟨rfl, rfl, fun _ => rfl⟩
  | initFault _ _ hclaims => cases hclaims <;> exact ⟨rfl, rfl, fun h => absurd rfl (h _ _ _ _)⟩
  | nop | init | deinit | start | finish | decode => cases hf.symm.trans hft

/-- Settles O23: a phase raises no fault, and a command only precise ones. -/
theorem faultsArePrecise : Obligations.FaultsArePrecise := by
  intro s t i hf hexec hft
  obtain rfl := execState_of_exec hexec
  cases hi : encode i with
  | command w =>
    obtain ⟨hstate, hinfo, halloc⟩ := (execState_effect_of_encode hi hf).fault_precise hf hft
    exact ⟨hstate, by rw [hinfo, commandWord_of_encode hi], halloc⟩
  | phase p =>
    obtain ⟨f, hphase⟩ := execState_of_phase hi s
    rw [hphase] at hft
    cases hf.symm.trans hft

/-! ## `DEINIT`, `START`, `FINISH` and `DECODE` -/

/-- Settles O14, by STATE. -/
theorem deinitReleasesEverything : Obligations.DeinitReleasesEverything := by
  intro s hf
  refine ⟨fun hs => commandsDuringFinishAreReentry s .deinit _ hf hs rfl nofun, fun hs => ?_, fun hs => ?_⟩
  · rw [exec_of_perform rfl hf (by simp [hs]), performDeinit, if_pos hs]
    rfl
  · have hactive : s.ctl.state ≠ .finishing ∧ s.ctl.state ≠ .uninit := by rcases hs with hs | hs <;> simp [hs]
    rw [exec_of_perform rfl hf hactive.1, performDeinit, if_neg hactive.2]
    rfl

/-- One sequencer tick is one microsecond (00 R8, R10). -/
theorem ticksOfUs_eq (us : Nat) : ticksOfUs us = us := by
  unfold ticksOfUs seqClkHz
  omega

/-- A threshold that 32 bits hold is its own timing word (30 R88). -/
theorem threshTicks_toNat {p : Params} {m : Model} (h : threshUs p m < 2 ^ 32) :
    (threshTicks p m).toNat = threshUs p m := by
  rw [threshTicks, ticksOfUs_eq, tickWord, if_pos (show _ < 4294967296 from h), toNat_ofNat_of_lt h]

/-- START in IDLE: BUF zeroed, the channel configured, the sequencer restarted with both timing words (42 R164). -/
theorem exec_start_of_idle {s : State} (hf : s.ctl.fatal = false) (hs : s.ctl.state = .idle) :
    exec .start s = .next { s with
      ctl := { s.ctl with state := .armed, startTs := nowUs s, reading := Reading.reset }
      seq := { seqRestart s.seq with
        seqEn := true
        inq := [startTicks s.ctl.config.model, threshTicks s.params s.ctl.config.model] }
      ch := { busy := true, count := 5, dst := 0 }
      buf := [] } := by
  rw [exec_of_perform rfl hf (by simp [hs]), performStart, if_neg (not_not.2 hs)]
  rfl

/-- Settles O15, by STATE; the two timing words are read off model by model. -/
theorem startArmsTheMeasurement : Obligations.StartArmsTheMeasurement := by
  intro s hf
  refine ⟨fun hs => commandsDuringFinishAreReentry s .start _ hf hs rfl nofun, fun hs => ?_, fun hs => ?_⟩
  · have hrefused : s.ctl.state ≠ .finishing ∧ s.ctl.state ≠ .idle := by rcases hs with hs | hs <;> simp [hs]
    rw [exec_of_perform rfl hf hrefused.1, performStart, if_pos hrefused.2]
    rfl
  · refine ⟨_, threshTicks s.params s.ctl.config.model, exec_start_of_idle hf hs, fun us hlt hus => ?_,
      fun _ => rfl, ?_⟩
    · obtain rfl : us = threshUs s.params s.ctl.config.model := by
        rw [hus]
        cases s.ctl.config.model <;> rfl
      exact threshTicks_toNat hlt
    · cases s.ctl.config.model <;> rfl

/-- Settles O16, by STATE. -/
theorem finishStartsTheWait : Obligations.FinishStartsTheWait := by
  intro s hf
  refine ⟨fun hs => commandsDuringFinishAreReentry s .finish _ hf hs rfl nofun, fun hs => ?_, fun hs => ?_⟩
  · have hrefused : s.ctl.state ≠ .finishing ∧ s.ctl.state ≠ .armed := by rcases hs with hs | hs <;> simp [hs]
    rw [exec_of_perform rfl hf hrefused.1, performFinish, if_pos hrefused.2]
    rfl
  · rw [exec_of_perform rfl hf (by simp [hs]), performFinish, if_neg (not_not.2 hs)]

/-- Settles O17: DECODE has no check of its own. -/
theorem decodeWritesTheReading : Obligations.DecodeWritesTheReading :=
  fun s m hf => ⟨exec_of_perform (perform := performDecode m) rfl hf,
    fun hs => commandsDuringFinishAreReentry s (.decode m) _ hf hs rfl nofun⟩

/-! ## The FINISH sub-phases -/

theorem step_of_ctlStep {s : State} (h : (nextEvent s).action = .ctlStep) :
    step s = .next (ctlSubPhase (prepare s)) := by
  rw [step_eq, h]
  rfl

theorem waitEnds_iff {s : State} : waitEnds s = true ↔ s.ch.busy = false ∨
    budgetUs s.ctl.config.model ≤ (BitVec.ofNat 32 s.env.clock - s.ctl.startTs).toNat := by
  simp [waitEnds, elapsed, nowUs]

section
variable {s : State} (hf : s.ctl.fatal = false) (hs : s.ctl.state = .finishing)
include hf hs

theorem ctlSubPhase_of_wait (hsub : s.ctl.finSub = .wait) : ctlSubPhase s = ctlWait s := by
  simp only [ctlSubPhase, hf, hs, hsub, and_self, if_true]

theorem ctlSubPhase_of_disable (hsub : s.ctl.finSub = .disable) : ctlSubPhase s = ctlDisable s := by
  simp only [ctlSubPhase, hf, hs, hsub, and_self, if_true]

theorem ctlSubPhase_of_check (hsub : s.ctl.finSub = .check) : ctlSubPhase s = ctlCheck s := by
  simp only [ctlSubPhase, hf, hs, hsub, and_self, if_true]

end

/-- A step that finds the channel idle or the budget reached ends WAIT (42 R176). -/
theorem step_of_wait_over {s : State} (ha : (nextEvent s).action = .ctlStep) (hf : s.ctl.fatal = false)
    (hs : s.ctl.state = .finishing) (hsub : s.ctl.finSub = .wait)
    (hover : s.ch.busy = false ∨ budgetUs s.ctl.config.model ≤
      (BitVec.ofNat 32 (prepare s).env.clock - s.ctl.startTs).toNat) :
    step s = .next { prepare s with ctl := { s.ctl with finSub := .disable } } := by
  rw [step_of_ctlStep ha]
  rw [← prepare_ctl s] at hf hs hsub hover ⊢
  rw [← prepare_ch s] at hover
  rw [ctlSubPhase_of_wait hf hs hsub, ctlWait, if_pos (waitEnds_iff.2 hover)]

/-- A step that finds the channel busy and the budget not reached polls again (42 R176). -/
theorem step_of_waiting {s : State} (ha : (nextEvent s).action = .ctlStep) (hf : s.ctl.fatal = false)
    (hs : s.ctl.state = .finishing) (hsub : s.ctl.finSub = .wait) (hbusy : s.ch.busy = true)
    (hlt : (BitVec.ofNat 32 (prepare s).env.clock - s.ctl.startTs).toNat < budgetUs s.ctl.config.model) :
    step s = .next (prepare s) := by
  rw [step_of_ctlStep ha]
  rw [← prepare_ctl s] at hf hs hsub hlt
  rw [← prepare_ch s] at hbusy
  rw [ctlSubPhase_of_wait hf hs hsub, ctlWait, if_neg]
  rw [waitEnds_iff, hbusy]
  exact fun h => h.elim nofun (not_le.2 hlt)

/-- Settles O35: the two lemmas above, with the budget of each model written out. -/
theorem waitEndsOnIdleOrBudget : Obligations.WaitEndsOnIdleOrBudget := by
  intro s ha hf hs hsub
  refine ⟨_, budgetUs s.ctl.config.model, rfl, ?_, step_of_wait_over ha hf hs hsub, step_of_waiting ha hf hs hsub⟩
  cases s.ctl.config.model <;> rfl

/-- Settles O36: the step is `seqDisable` and the next sub-phase. -/
theorem disableFreezesTheSequencer : Obligations.DisableFreezesTheSequencer := by
  intro s ha hf hs hsub
  rw [step_of_ctlStep ha]
  rw [← prepare_ctl s] at hf hs hsub ⊢
  rw [← prepare_seq s, ctlSubPhase_of_disable hf hs hsub]
  rfl

/-- Settles O37: `CH_BUSY` selects the outcome. -/
theorem checkDecidesTheOutcome : Obligations.CheckDecidesTheOutcome := by
  intro s ha hf hs hsub
  rw [step_of_ctlStep ha]
  rw [← prepare_ctl s] at hf hs hsub ⊢
  rw [← prepare_ch s, ← prepare_buf s, ctlSubPhase_of_check hf hs hsub]
  refine ⟨fun hbusy => ?_, fun hbusy => ?_⟩
  · simp only [ctlCheck, hbusy, if_true]
    rfl
  · simp only [ctlCheck, hbusy]
    rfl

/-! ## The end of a measurement -/

/-- What three controller steps in a row share: the step at hand is the controller's, in FINISHING with FATAL 0, and
`rest` is to come after it. -/
structure FinishStep (s : State) (rest : List Event) : Prop where
  action : (nextEvent s).action = .ctlStep
  agenda : (prepare s).env.agenda = rest
  fatal : s.ctl.fatal = false
  state : s.ctl.state = .finishing

theorem finishStep_of_agenda {s : State} {e : Event} {rest : List Event} (hag : s.env.agenda = e :: rest)
    (ha : e.action = .ctlStep) (hf : s.ctl.fatal = false) (hs : s.ctl.state = .finishing) : FinishStep s rest :=
  ⟨by rw [nextEvent_cons hag, ha], by rw [prepare_of_agenda_cons hag], hf, hs⟩

theorem FinishStep.wait_over {s : State} {rest : List Event} (h : FinishStep s rest) (hsub : s.ctl.finSub = .wait)
    (hover : s.ch.busy = false ∨ budgetUs s.ctl.config.model ≤
      (BitVec.ofNat 32 (prepare s).env.clock - s.ctl.startTs).toNat) :
    ∃ t, step s = .next t ∧ t.env.agenda = rest ∧ t.ctl = { s.ctl with finSub := .disable } ∧ t.seq = s.seq ∧
      t.ch = s.ch ∧ t.buf = s.buf :=
  ⟨_, step_of_wait_over h.action h.fatal h.state hsub hover, h.agenda, rfl, prepare_seq s, prepare_ch s,
    prepare_buf s⟩

theorem FinishStep.disable {s : State} {rest : List Event} (h : FinishStep s rest) (hsub : s.ctl.finSub = .disable) :
    ∃ t, step s = .next t ∧ t.env.agenda = rest ∧ t.ctl = { s.ctl with finSub := .check } ∧
      t.seq = seqDisable s.seq ∧ t.ch = s.ch ∧ t.buf = s.buf :=
  ⟨_, disableFreezesTheSequencer s h.action h.fatal h.state hsub, h.agenda, rfl, rfl, prepare_ch s, prepare_buf s⟩

theorem FinishStep.check {s : State} {rest : List Event} (h : FinishStep s rest) (hsub : s.ctl.finSub = .check) :
    ∃ t, step s = .next t ∧ t.ctl.state = .idle ∧ t.ctl.finSub = .wait ∧ t.ctl.fatal = false ∧ t.seq = s.seq ∧
      t.ch.busy = false ∧ t.buf = s.buf ∧ (s.ch.busy = true → t.ctl.reading.result = .timeout) ∧
      (s.ch.busy = false → t.ctl.reading = frameDecode s.ctl.config.model (bufFrame s)) := by
  obtain ⟨timeout, decoded⟩ := checkDecidesTheOutcome s h.action h.fatal h.state hsub
  cases hbusy : s.ch.busy with
  | true => exact ⟨_, timeout hbusy, rfl, rfl, h.fatal, prepare_seq s, rfl, prepare_buf s, fun _ => rfl, nofun⟩
  | false =>
    exact ⟨_, decoded hbusy, rfl, rfl, h.fatal, prepare_seq s, by rw [prepare_ch, hbusy], prepare_buf s, nofun,
      fun _ => rfl⟩

/-- Settles O38: WAIT, DISABLE and CHECK in turn; the first two keep the channel, BUF and the configuration, which
decide the outcome. -/
theorem finishEndsInThreeSteps : Obligations.FinishEndsInThreeSteps := by
  intro s e1 e2 e3 rest hag ha1 ha2 ha3 hf hs hsub hover
  have hclock : (prepare s).env.clock = s.env.clock + e1.draws.elapse := by rw [prepare_of_agenda_cons hag]
  rw [← hclock] at hover
  obtain ⟨t1, hstep1, hag1, hctl1, hseq1, hch1, hbuf1⟩ :=
    (finishStep_of_agenda hag ha1 hf hs).wait_over hsub hover
  obtain ⟨t2, hstep2, hag2, hctl2, hseq2, hch2, hbuf2⟩ :=
    (finishStep_of_agenda hag1 ha2 (by rw [hctl1, hf]) (by rw [hctl1, hs])).disable (by rw [hctl1])
  obtain ⟨t3, hstep3, hidle, hwait, hfatal, hseq3, hbusy3, hbuf3, htimeout, hdecoded⟩ :=
    (finishStep_of_agenda hag2 ha3 (by rw [hctl2, hctl1, hf]) (by rw [hctl2, hctl1, hs])).check (by rw [hctl2])
  refine ⟨t3, ?_, hidle, hwait, hfatal, ?_, hbusy3, ?_, ?_, ?_⟩
  · rw [core_run_succ hstep1, core_run_succ hstep2, core_run_succ hstep3, core_run_zero]
  · rw [hseq3, hseq2, hseq1, seqDisable]
  · rw [hbuf3, hbuf2, hbuf1]
  · rwa [← hch1, ← hch2]
  · rw [← hch1, ← hch2]
    simpa only [bufFrame, hctl2, hctl1, hbuf2, hbuf1] using hdecoded

end Sys2Proof.Machine
end

section
/-! SUPPORT. The frame decoder (spec/43_frame_decoder.md R200 to R215): the checksum as a number, each encoding as a
formula that fits its register, and the bytes of a reading. -/

namespace Sys2Proof.Machine

/-! ## The checksum -/

theorem checksumOk_iff {r : Frame} : checksumOk r = true ↔ r.ck = sum8 r := decide_eq_true_iff

theorem checksumOk_eq_false_iff {r : Frame} : checksumOk r = false ↔ r.ck ≠ sum8 r := decide_eq_false_iff_not

theorem sum8_toNat (r : Frame) :
    (sum8 r).toNat = (r.hh.toNat + r.hl.toNat + r.th.toNat + r.tl.toNat) % 256 := by
  simp [sum8]

theorem checksumOk_iff_toNat {r : Frame} :
    checksumOk r = true ↔ (r.hh.toNat + r.hl.toNat + r.th.toNat + r.tl.toNat) % 256 = r.ck.toNat := by
  rw [checksumOk_iff, ← BitVec.toNat_inj, sum8_toNat, eq_comm]

/-- Settles O40: changing one of the four summed bytes changes the sum, and the fifth byte is compared with it. -/
theorem singleByteChangesAreDetected : Obligations.SingleByteChangesAreDetected := by
  intro r v hok
  simp only [checksumOk_eq_false_iff, checksumOk_iff.1 hok]
  refine ⟨fun hv => ?_, fun hv => ?_, fun hv => ?_, fun hv => ?_, id⟩ <;> simpa [sum8] using hv.symm

/-! ## The encodings as formulas -/

theorem signBit_eq (th : Byte) : signBit th = decide (128 ≤ th.toNat) := BitVec.msb_eq_decide th

theorem signedTenths_eq (th : Byte) (mag : Nat) : signedTenths th mag =
    { tenths := if 128 ≤ th.toNat then -(mag : Int) else mag, tneg := decide (128 ≤ th.toNat), tclamp := false } := by
  rw [signedTenths, signBit_eq]
  by_cases h : 128 ≤ th.toNat <;> simp [h]

theorem temperature_splitClamp (th tl : Byte) : temperature .splitClamp th tl =
    { tenths := if 128 ≤ th.toNat then 0 else ((10 * th.toNat + tl.toNat % 128 : Nat) : Int), tneg := false
      tclamp := decide (128 ≤ th.toNat) } := by
  rw [temperature, signBit_eq]
  by_cases h : 128 ≤ th.toNat <;> simp [h, low7]

theorem temperature_splitNeg (th tl : Byte) : temperature .splitNeg th tl =
    { tenths := if 128 ≤ th.toNat then -((10 * th.toNat + tl.toNat % 128 : Nat) : Int)
        else ((10 * th.toNat + tl.toNat % 128 : Nat) : Int)
      tneg := decide (128 ≤ th.toNat), tclamp := false } :=
  signedTenths_eq th _

theorem temperature_scaledNeg (th tl : Byte) : temperature .scaledNeg th tl =
    { tenths := if 128 ≤ th.toNat then -((256 * (th.toNat % 128) + tl.toNat : Nat) : Int)
        else ((256 * (th.toNat % 128) + tl.toNat : Nat) : Int)
      tneg := decide (128 ≤ th.toNat), tclamp := false } := by
  rw [Nat.mul_comm 256]
  exact signedTenths_eq th _

/-! ## No narrowing loses a value (43 R210) -/

theorem humidity_lt (e : HumEnc) (hh hl : Byte) : humidity e hh hl < 2 ^ 16 := by
  cases e with
  | split => rw [humidity]; omega
  | scaled => rw [humidity]; omega

theorem temperature_tenths_fits (e : TempEnc) (th tl : Byte) :
    -2 ^ 15 ≤ (temperature e th tl).tenths ∧ (temperature e th tl).tenths < 2 ^ 15 := by
  cases e with
  | splitClamp => simp only [temperature_splitClamp]; split_ifs <;> omega
  | splitNeg => simp only [temperature_splitNeg]; split_ifs <;> omega
  | scaledNeg => simp only [temperature_scaledNeg]; split_ifs <;> omega

section
variable {m : Model} {r : Frame}

theorem frameDecode_of_bad (h : ¬ checksumOk r = true) :
    frameDecode m r = { result := .badChecksum, hum := 0, temp := 0, tneg := false, tclamp := false } := if_neg h

variable (h : checksumOk r = true)
include h

theorem frameDecode_of_ok : frameDecode m r =
    { result := .ok, hum := BitVec.ofNat 16 (humidity (humEnc m) r.hh r.hl)
      temp := BitVec.ofInt 16 (temperature (tempEnc m) r.th r.tl).tenths
      tneg := (temperature (tempEnc m) r.th r.tl).tneg, tclamp := (temperature (tempEnc m) r.th r.tl).tclamp } :=
  if_pos h

theorem frameDecode_hum_toNat : (frameDecode m r).hum.toNat = humidity (humEnc m) r.hh r.hl := by
  rw [frameDecode_of_ok h]
  exact toNat_ofNat_of_lt (humidity_lt _ _ _)

theorem frameDecode_temp_toInt : (frameDecode m r).temp.toInt = (temperature (tempEnc m) r.th r.tl).tenths := by
  rw [frameDecode_of_ok h]
  obtain ⟨hlo, hhi⟩ := temperature_tenths_fits (tempEnc m) r.th r.tl
  exact BitVec.toInt_ofInt_eq_self (by decide) hlo hhi

end

/-- Settles O39: a valid frame's fields are the two formulas of the model's encodings (43 R209). -/
theorem frameDecodesToExactTenths : Obligations.FrameDecodesToExactTenths := by
  intro m r
  rw [ne_eq, ← checksumOk_iff_toNat]
  refine ⟨frameDecode_of_bad, fun h => ?_⟩
  rw [frameDecode_hum_toNat h, frameDecode_temp_toInt h, frameDecode_of_ok h]
  cases m with
  | m0 => simp [humEnc, tempEnc, humidity, temperature_splitClamp]
  | m1 => simp [humEnc, tempEnc, humidity, temperature_splitNeg]
  | m2 | m3 => simp [humEnc, tempEnc, humidity, temperature_scaledNeg, Nat.mul_comm]

/-! ## The bytes of a reading -/

/-- A number of tenths as a pair of bytes: the first is as large as `cap` lets it be, the rest is the second. -/
theorem exists_split_bytes {n cap spare : Nat} (hcap : cap < 256) (hspare : 9 ≤ spare) (hspare' : spare < 256)
    (hn : n ≤ 10 * cap + spare) :
    ∃ hi lo : Byte, hi.toNat = min (n / 10) cap ∧ lo.toNat ≤ spare ∧ 10 * hi.toNat + lo.toNat = n := by
  have hhi : (BitVec.ofNat 8 (min (n / 10) cap)).toNat = min (n / 10) cap := toNat_ofNat_of_lt (by omega)
  have hlo : (BitVec.ofNat 8 (n - 10 * min (n / 10) cap)).toNat = n - 10 * min (n / 10) cap :=
    toNat_ofNat_of_lt (by omega)
  exact ⟨.ofNat 8 (min (n / 10) cap), .ofNat 8 (n - 10 * min (n / 10) cap), by omega⟩

theorem exists_scaled_bytes {n : Nat} (hn : n ≤ 65535) : ∃ hi lo : Byte, 256 * hi.toNat + lo.toNat = n := by
  have hhi : (BitVec.ofNat 8 (n / 256)).toNat = n / 256 := toNat_ofNat_of_lt (by omega)
  have hlo : (BitVec.ofNat 8 (n % 256)).toNat = n % 256 := toNat_ofNat_of_lt (by omega)
  exact ⟨.ofNat 8 (n / 256), .ofNat 8 (n % 256), by rw [hhi, hlo, Nat.div_add_mod]⟩

theorem exists_humidity_split {h : Nat} (hle : h ≤ 2805) : ∃ hh hl : Byte, humidity .split hh hl = h := by
  obtain ⟨hh, hl, -, -, hsum⟩ := exists_split_bytes (cap := 255) (spare := 255) (by decide) (by decide) (by decide) hle
  exact ⟨hh, hl, hsum⟩

theorem exists_humidity_scaled {h : Nat} (hle : h ≤ 65535) : ∃ hh hl : Byte, humidity .scaled hh hl = h := by
  obtain ⟨hh, hl, hsum⟩ := exists_scaled_bytes hle
  exact ⟨hh, hl, by rw [humidity, Nat.mul_comm, hsum]⟩

/-- A split temperature that is not negative: byte 2 stays below 128, so the sign bit is 0. -/
theorem exists_split_temperature {t : Int} (h0 : 0 ≤ t) (h1 : t ≤ 1397) :
    ∃ th tl : Byte, th.toNat < 128 ∧ ((10 * th.toNat + tl.toNat % 128 : Nat) : Int) = t := by
  obtain ⟨th, tl, hth, htl, hsum⟩ := exists_split_bytes (n := t.toNat) (cap := 127) (spare := 127) (by decide)
    (by decide) (by decide) (by omega)
  exact ⟨th, tl, by omega, by omega⟩

theorem exists_temperature_splitClamp {t : Int} (h0 : 0 ≤ t) (h1 : t ≤ 1397) :
    ∃ th tl : Byte, (temperature .splitClamp th tl).tenths = t := by
  obtain ⟨th, tl, hth, hsum⟩ := exists_split_temperature h0 h1
  exact ⟨th, tl, by rw [temperature_splitClamp, if_neg hth.not_ge, hsum]⟩

/-- Byte 2 stays whole in the negating split (90 C6), so a negative value is at least 10 * 128 in magnitude. -/
theorem exists_temperature_splitNeg {t : Int} (ht : 0 ≤ t ∧ t ≤ 1397 ∨ -2677 ≤ t ∧ t ≤ -1280) :
    ∃ th tl : Byte, (temperature .splitNeg th tl).tenths = t := by
  obtain ⟨h0, h1⟩ | ⟨h0, h1⟩ := ht
  · obtain ⟨th, tl, hth, hsum⟩ := exists_split_temperature h0 h1
    exact ⟨th, tl, by rw [temperature_splitNeg, if_neg hth.not_ge, hsum]⟩
  · obtain ⟨th, tl, hth, htl, hsum⟩ := exists_split_bytes (n := (-t).toNat) (cap := 255) (spare := 127) (by decide)
      (by decide) (by decide) (by omega)
    have hsign : 128 ≤ th.toNat := by omega
    exact ⟨th, tl, by simp only [temperature_splitNeg, if_pos hsign]; omega⟩

/-- Sign-magnitude: a negative value is its magnitude with 2 ^ 15, the sign bit, added to it. -/
theorem exists_temperature_scaledNeg {t : Int} (h0 : -32767 ≤ t) (h1 : t ≤ 32767) :
    ∃ th tl : Byte, (temperature .scaledNeg th tl).tenths = t := by
  obtain hneg | hpos := lt_or_ge t 0
  · obtain ⟨th, tl, hsum⟩ := exists_scaled_bytes (n := 32768 + (-t).toNat) (by omega)
    have hsign : 128 ≤ th.toNat := by omega
    exact ⟨th, tl, by simp only [temperature_scaledNeg, if_pos hsign]; omega⟩
  · obtain ⟨th, tl, hsum⟩ := exists_scaled_bytes (n := t.toNat) (by omega)
    have hsign : ¬ 128 ≤ th.toNat := by omega
    exact ⟨th, tl, by simp only [temperature_scaledNeg, if_neg hsign]; omega⟩

/-- Any four bytes make a valid frame with their sum as the fifth. -/
theorem exists_frame_of_bytes {m : Model} {h : Nat} {t : Int}
    (hhum : ∃ hh hl : Byte, humidity (humEnc m) hh hl = h)
    (htemp : ∃ th tl : Byte, (temperature (tempEnc m) th tl).tenths = t) :
    ∃ r : Frame, r.ck = sum8 r ∧ (frameDecode m r).result = .ok ∧ (frameDecode m r).hum.toNat = h ∧
      (frameDecode m r).temp.toInt = t := by
  obtain ⟨hh, hl, rfl⟩ := hhum
  obtain ⟨th, tl, rfl⟩ := htemp
  have hok : checksumOk ⟨hh, hl, th, tl, hh + hl + th + tl⟩ = true := checksumOk_iff.2 rfl
  exact ⟨_, checksumOk_iff.1 hok, by rw [frameDecode_of_ok hok], frameDecode_hum_toNat hok,
    frameDecode_temp_toInt hok⟩

/-- Settles O41: the humidity and the temperature choose their bytes apart from each other. -/
theorem everyReadingHasAFrame : Obligations.EveryReadingHasAFrame := by
  intro m h t hrange
  cases m with
  | m0 =>
    obtain ⟨hh, h0, h1⟩ := hrange
    exact exists_frame_of_bytes (exists_humidity_split hh) (exists_temperature_splitClamp h0 h1)
  | m1 =>
    obtain ⟨hh, ht⟩ := hrange
    exact exists_frame_of_bytes (exists_humidity_split hh) (exists_temperature_splitNeg ht)
  | m2 | m3 =>
    obtain ⟨hh, h0, h1⟩ := hrange
    exact exists_frame_of_bytes (exists_humidity_scaled hh) (exists_temperature_scaledNeg h0 h1)

end Sys2Proof.Machine
end

section
/-! SUPPORT. Exceptions (spec/60_exceptions.md): what raises FATAL (R230, R233), and that no agent takes what another
has claimed (R246, R247, R249, R250). -/

namespace Sys2Proof.Machine

/-! ## The fatal exception -/

/-- Settles O19: `fatalEntry` is that update. -/
theorem fatalEntryRecordsTheCause : Obligations.FatalEntryRecordsTheCause := fun _ _ _ => rfl

/-- Only an illegal word and a command that faults raise FATAL, and both record the word written (60 R230, R231). -/
theorem AgentEffect.fatal_raised {s t : State} {a : Action} (heffect : AgentEffect s a t) (hf : s.ctl.fatal = false)
    (hft : t.ctl.fatal = true) : ∃ w, a = .hostWrite 32 0x00 w ∧ t.ctl.faultInfo = w := by
  cases heffect with
  | @illegal w => exact ⟨w, rfl, rfl⟩
  | @command w i _ _ hdecode hcommand =>
    obtain ⟨-, hinfo, -⟩ := hcommand.fault_precise hf hft
    exact ⟨w, rfl, hinfo.trans (commandWord_of_encode (encode_of_decode_command hdecode).2)⟩
  | blockReset | platformReset => cases hft
  | stall | decIn0 | decIn1 | read | tick | transfer | waitOver | disable | timeout | decoded | peerClaimUnit
  | peerReleaseUnit | peerClaimChannel | peerReleaseChannel => cases hf.symm.trans hft

/-- Settles O22, action by action. -/
theorem onlyCommandsEnterTheFatalState : Obligations.OnlyCommandsEnterTheFatalState :=
  fun s _ hf hstep hft => (step_effect hstep).fatal_raised ((prepare_ctl s).symm ▸ hf) hft

/-! ## The claims -/

theorem CommandEffect.env_kept {s t : State} {i : Instr} (heffect : CommandEffect s i t) : t.env = s.env := by
  cases heffect with
  | initFault _ _ hclaims => cases hclaims <;> rfl
  | nop | fault | init | deinit | start | finish | decode => rfl

/-- A unit leaves the peers' holdings only by a peer's release of that unit or by the platform's reset (60 R249). -/
theorem AgentEffect.peerUnit_kept {s t : State} {a : Action} (heffect : AgentEffect s a t) {p : Nat × Nat}
    (hp : p ∈ s.env.peerUnits) : p ∈ t.env.peerUnits ∨ a = .peerReleaseUnit p.1 p.2 ∨ a = .platformReset := by
  cases heffect with
  | command _ _ hcommand => exact .inl (hcommand.env_kept ▸ hp)
  | peerClaimUnit => exact .inl (.tail _ hp)
  | @peerReleaseUnit b u =>
    by_cases he : p = (b, u)
    · exact .inr (.inl (by rw [he]))
    · exact .inl (List.mem_filter.2 ⟨hp, decide_eq_true he⟩)
  | platformReset => exact .inr (.inr rfl)
  | stall | illegal | decIn0 | decIn1 | read | tick | transfer | waitOver | disable | timeout | decoded
  | peerClaimChannel | peerReleaseChannel | blockReset => exact .inl hp

/-- A channel leaves the peers' holdings only by a peer's release of that channel or by the platform's reset (60
R249). -/
theorem AgentEffect.peerChan_kept {s t : State} {a : Action} (heffect : AgentEffect s a t) {c : Nat}
    (hc : c ∈ s.env.peerChans) : c ∈ t.env.peerChans ∨ a = .peerReleaseChannel c ∨ a = .platformReset := by
  cases heffect with
  | command _ _ hcommand => exact .inl (hcommand.env_kept ▸ hc)
  | peerClaimChannel => exact .inl (.tail _ hc)
  | @peerReleaseChannel c' =>
    by_cases he : c = c'
    · exact .inr (.inl (by rw [he]))
    · exact .inl (List.mem_filter.2 ⟨hc, decide_eq_true he⟩)
  | platformReset => exact .inr (.inr rfl)
  | stall | illegal | decIn0 | decIn1 | read | tick | transfer | waitOver | disable | timeout | decoded
  | peerClaimUnit | peerReleaseUnit | blockReset => exact .inl hc

/-- The unit and the channel that CONFIG records in `t` were free in `s`. -/
def RecordsFreeClaims (s t : State) : Prop :=
  (t.ctl.config.block.toNat, t.ctl.config.unitId.toNat) ∉ s.alloc.units ∧
  t.ctl.config.chanId.toNat ∉ s.alloc.chans

/-- A command that leaves UNINIT is an `INIT` past its claims, whose ids fit the fields of CONFIG (42 R162). -/
theorem CommandEffect.recordsFreeClaims {s t : State} {i : Instr} (heffect : CommandEffect s i t)
    (hs : s.ctl.state = .uninit) (ht : t.ctl.state ≠ .uninit) : RecordsFreeClaims s t := by
  cases heffect with
  | init _ hblock hunit hunitFree hchan hchanFree =>
    simp only [RecordsFreeClaims, toNat_ofNat_of_lt (w := 2) (hblock.trans_le (numBlocks_le s.params)),
      toNat_ofNat_of_lt (w := 4) (hunit.trans_le (unitsPerBlock_le s.params)),
      toNat_ofNat_of_lt (w := 4) (hchan.trans_le (numChannels_le s.params))]
    exact ⟨hunitFree, hchanFree⟩
  | initFault _ _ hclaims => cases hclaims <;> exact absurd hs ht
  | nop | fault | decode => exact absurd hs ht
  | deinit => exact absurd rfl ht
  | start hstate | finish hstate => cases hs.symm.trans hstate

theorem AgentEffect.recordsFreeClaims {s t : State} {a : Action} (heffect : AgentEffect s a t)
    (hs : s.ctl.state = .uninit) (ht : t.ctl.state ≠ .uninit) : RecordsFreeClaims s t := by
  cases heffect with
  | command _ _ hcommand => exact hcommand.recordsFreeClaims hs ht
  | timeout _ hstate | decoded _ hstate => cases hs.symm.trans hstate
  | blockReset | platformReset => exact absurd rfl ht
  | stall | illegal | decIn0 | decIn1 | read | tick | transfer | waitOver | disable | peerClaimUnit | peerReleaseUnit
  | peerClaimChannel | peerReleaseChannel => exact absurd hs ht

/-- Settles O60: the peers' holdings last, and the invariant after the step has them claimed. -/
theorem claimsAreExclusive : Obligations.ClaimsAreExclusive := by
  intro s t hinv hstep
  have heffect := step_effect hstep
  have hclaimed := (everyStepKeepsTheInvariant s t hinv hstep).alloc
  rw [← prepare_env_peerUnits, ← prepare_env_peerChans, ← prepare_ctl s, ← prepare_alloc s]
  refine ⟨fun p hp => ?_, fun c hc => ?_, fun ht hs => heffect.recordsFreeClaims hs ht⟩
  · exact (heffect.peerUnit_kept hp).imp_left fun hkept => ⟨hkept, hclaimed.peerUnits p hkept⟩
  · exact (heffect.peerChan_kept hc).imp_left fun hkept => ⟨hkept, hclaimed.peerChans c hkept⟩

end Sys2Proof.Machine
end
